-- ==== Sys2Proof/Word.lean ====
section
/-! DEFINITION. The word types of the machine: bytes of eight bits and addresses of sixteen. -/

namespace Sys2Proof

/-- `u8` of R10: the unit of every CPU bus access (R60). -/
abbrev Byte := BitVec 8

/-- `u16` of R10: a CPU address, and the program counter (R22). -/
abbrev Word := BitVec 16

/-- A 14-bit PPU address: "every address is reduced with `& 0x3FFF`" (R33, R274). -/
abbrev PpuAddr := BitVec 14

/-- The type of the PPU's `v` and `t`, `u15` of R10 (R273). -/
abbrev Scroll := BitVec 15

end Sys2Proof
end

