-- ==== Sys2Proof/Syntax.lean ====
section
/-! DEFINITION. The syntax of the instruction set: one constructor for each of the 151 rows of
spec/opcode_table.json (30_encoding.md R113), carrying the operand bytes of its format (R90). -/

namespace Sys2Proof

/-- An instruction. A constructor is a mnemonic in one addressing mode; its argument is the operand as the
program writes it: the byte after the opcode, or the two bytes `hi ++ lo` (R90, R91). -/
inductive Instr where
  -- 40 loads, stores, transfers
  | ldaIzx (z : Byte)
  | ldaZp0 (z : Byte)
  | ldaImm (b : Byte)
  | ldaAbs (a : Word)
  | ldaIzy (z : Byte)
  | ldaZpx (z : Byte)
  | ldaAby (a : Word)
  | ldaAbx (a : Word)
  | ldxImm (b : Byte)
  | ldxZp0 (z : Byte)
  | ldxAbs (a : Word)
  | ldxZpy (z : Byte)
  | ldxAby (a : Word)
  | ldyImm (b : Byte)
  | ldyZp0 (z : Byte)
  | ldyAbs (a : Word)
  | ldyZpx (z : Byte)
  | ldyAbx (a : Word)
  | staIzx (z : Byte)
  | staZp0 (z : Byte)
  | staAbs (a : Word)
  | staIzy (z : Byte)
  | staZpx (z : Byte)
  | staAby (a : Word)
  | staAbx (a : Word)
  | stxZp0 (z : Byte)
  | stxAbs (a : Word)
  | stxZpy (z : Byte)
  | styZp0 (z : Byte)
  | styAbs (a : Word)
  | styZpx (z : Byte)
  | tax
  | tay
  | txa
  | tya
  | tsx
  | txs
  -- 41 arithmetic
  | adcIzx (z : Byte)
  | adcZp0 (z : Byte)
  | adcImm (b : Byte)
  | adcAbs (a : Word)
  | adcIzy (z : Byte)
  | adcZpx (z : Byte)
  | adcAby (a : Word)
  | adcAbx (a : Word)
  | sbcIzx (z : Byte)
  | sbcZp0 (z : Byte)
  | sbcImm (b : Byte)
  | sbcAbs (a : Word)
  | sbcIzy (z : Byte)
  | sbcZpx (z : Byte)
  | sbcAby (a : Word)
  | sbcAbx (a : Word)
  | cmpIzx (z : Byte)
  | cmpZp0 (z : Byte)
  | cmpImm (b : Byte)
  | cmpAbs (a : Word)
  | cmpIzy (z : Byte)
  | cmpZpx (z : Byte)
  | cmpAby (a : Word)
  | cmpAbx (a : Word)
  | cpxImm (b : Byte)
  | cpxZp0 (z : Byte)
  | cpxAbs (a : Word)
  | cpyImm (b : Byte)
  | cpyZp0 (z : Byte)
  | cpyAbs (a : Word)
  | incZp0 (z : Byte)
  | incAbs (a : Word)
  | incZpx (z : Byte)
  | incAbx (a : Word)
  | inx
  | iny
  | decZp0 (z : Byte)
  | decAbs (a : Word)
  | decZpx (z : Byte)
  | decAbx (a : Word)
  | dex
  | dey
  -- 42 logic, shifts
  | andIzx (z : Byte)
  | andZp0 (z : Byte)
  | andImm (b : Byte)
  | andAbs (a : Word)
  | andIzy (z : Byte)
  | andZpx (z : Byte)
  | andAby (a : Word)
  | andAbx (a : Word)
  | oraIzx (z : Byte)
  | oraZp0 (z : Byte)
  | oraImm (b : Byte)
  | oraAbs (a : Word)
  | oraIzy (z : Byte)
  | oraZpx (z : Byte)
  | oraAby (a : Word)
  | oraAbx (a : Word)
  | eorIzx (z : Byte)
  | eorZp0 (z : Byte)
  | eorImm (b : Byte)
  | eorAbs (a : Word)
  | eorIzy (z : Byte)
  | eorZpx (z : Byte)
  | eorAby (a : Word)
  | eorAbx (a : Word)
  | bitZp0 (z : Byte)
  | bitAbs (a : Word)
  | aslZp0 (z : Byte)
  | aslAcc
  | aslAbs (a : Word)
  | aslZpx (z : Byte)
  | aslAbx (a : Word)
  | lsrZp0 (z : Byte)
  | lsrAcc
  | lsrAbs (a : Word)
  | lsrZpx (z : Byte)
  | lsrAbx (a : Word)
  | rolZp0 (z : Byte)
  | rolAcc
  | rolAbs (a : Word)
  | rolZpx (z : Byte)
  | rolAbx (a : Word)
  | rorZp0 (z : Byte)
  | rorAcc
  | rorAbs (a : Word)
  | rorZpx (z : Byte)
  | rorAbx (a : Word)
  -- 43 control flow
  | jmpAbs (a : Word)
  | jmpInd (a : Word)
  | jsr (a : Word)
  | rts
  | bcc (off : Byte)
  | bcs (off : Byte)
  | beq (off : Byte)
  | bne (off : Byte)
  | bmi (off : Byte)
  | bpl (off : Byte)
  | bvc (off : Byte)
  | bvs (off : Byte)
  -- 44 stack, flags, system
  | pha
  | php
  | pla
  | plp
  | clc
  | sec
  | cli
  | sei
  | cld
  | sed
  | clv
  | nop
  | brk
  | rti
deriving DecidableEq, Repr

end Sys2Proof
end

