-- ==== Sys2Proof/Machine/Modes.lean ====
section
/-! DEFINITION. The names of the instruction table (30_encoding.md R91, R113): the 56 mnemonics, the thirteen
addressing modes, an addressing mode together with its operand, and the kinds of extra cycle of R107. -/

namespace Sys2Proof

/-- The 56 mnemonics of R113. -/
inductive Mnemonic where
  | LDA | LDX | LDY | STA | STX | STY | TAX | TAY | TXA | TYA | TSX | TXS
  | ADC | SBC | CMP | CPX | CPY | INC | INX | INY | DEC | DEX | DEY
  | AND | ORA | EOR | BIT | ASL | LSR | ROL | ROR
  | JMP | JSR | RTS | BCC | BCS | BEQ | BNE | BMI | BPL | BVC | BVS
  | PHA | PHP | PLA | PLP | CLC | SEC | CLI | SEI | CLD | SED | CLV | NOP | BRK | RTI
deriving DecidableEq, Repr

/-- The thirteen addressing modes of R91. -/
inductive Mode where
  | imp | acc | imm | zp0 | zpx | zpy | rel | abs | abx | aby | ind | izx | izy
deriving DecidableEq, Repr

/-- An addressing mode with the operand bytes it fetches (R91): a byte, or `hi ++ lo`. -/
inductive Operand where
  | imp
  | acc
  | imm (b : Byte)
  | zp0 (z : Byte)
  | zpx (z : Byte)
  | zpy (z : Byte)
  | rel (off : Byte)
  | abs (a : Word)
  | abx (a : Word)
  | aby (a : Word)
  | ind (a : Word)
  | izx (z : Byte)
  | izy (z : Byte)
deriving DecidableEq, Repr

/-- How an instruction comes by extra cycles (R107). -/
inductive Extra where
  /-- (c): never. -/
  | none
  /-- (b), the rows marked `+`: one when the indexed addition changed the high byte. -/
  | pageCross
  /-- (a), the branches: by whether the branch is taken and leaves the page. -/
  | branch
deriving DecidableEq, Repr

/-- The mode of an operand. -/
def Operand.mode : Operand → Mode
  | .imp => .imp
  | .acc => .acc
  | .imm _ => .imm
  | .zp0 _ => .zp0
  | .zpx _ => .zpx
  | .zpy _ => .zpy
  | .rel _ => .rel
  | .abs _ => .abs
  | .abx _ => .abx
  | .aby _ => .aby
  | .ind _ => .ind
  | .izx _ => .izx
  | .izy _ => .izy

/-- The instruction's length in bytes, opcode byte included (R91). -/
def Mode.length : Mode → Nat
  | .imp | .acc => 1
  | .imm | .zp0 | .zpx | .zpy | .rel | .izx | .izy => 2
  | .abs | .abx | .aby | .ind => 3

end Sys2Proof
end

