-- ==== Sys2Proof/Machine/Bits.lean ====
section
/-! DEFINITION. Bit fields, byte order and sign extension (00_scope.md R9 to R11). -/

namespace Sys2Proof

/-- The value of an address with high byte `hi` and low byte `lo`: `hi ++ lo` of R10, little-endian in memory (R62). -/
def mkWord (hi lo : Byte) : Word := hi ++ lo

/-- Bits 15:8 of an address. -/
def hiByte (a : Word) : Byte := a.extractLsb' 8 8

/-- Bits 7:0 of an address. -/
def loByte (a : Word) : Byte := a.extractLsb' 0 8

/-- `zext_16` of R11. -/
def zext16 (b : Byte) : Word := b.setWidth 16

/-- `sext_8` of R11: `b` if `b < 0x80`, else `b + 0xFF00`. -/
def sext8 (b : Byte) : Word := b.signExtend 16

/-- `x` with bit `i` replaced by `b`. -/
def putBit {n : Nat} (x : BitVec n) (i : Nat) (b : Bool) : BitVec n :=
  if b then x ||| (1#n <<< i) else x &&& ~~~(1#n <<< i)

/-- `x` with the `k` bits from `lo` upward replaced by `f`: the assignment `x[lo+k-1:lo] <- f` of the rules (R9). -/
def putField {n k : Nat} (x : BitVec n) (lo : Nat) (f : BitVec k) : BitVec n :=
  (x &&& ~~~((BitVec.allOnes k).setWidth n <<< lo)) ||| (f.setWidth n <<< lo)

/-- Do two addresses lie in different pages: `(a & 0xFF00) != (b & 0xFF00)` (R102, R193). -/
def pageDiffers (a b : Word) : Bool := a &&& 0xFF00 != b &&& 0xFF00

end Sys2Proof
end

