-- ==== Sys2Proof/Machine/Memory.lean ====
section
/-! DEFINITION. A memory array: a list of (index, value) pairs in one canonical form, indices strictly rising and no
entry equal to what an unlisted index reads as. Every storage array of the machine is one of these. -/

namespace Sys2Proof.Machine

/-- A storage array of `w`-bit cells; with `w = 8` a list of `Host.Cell`. -/
abbrev Mem (w : Nat) := List (Nat × BitVec w)

/-- What an unlisted index reads as. DESIGN CHOICE, unsafe: the spec gives no contents at power-on (R8, R411); log 1, 2. -/
def Mem.blank {w : Nat} : BitVec w := 0

/-- Read one cell. -/
def Mem.read {w : Nat} : Mem w → Nat → BitVec w
  | [], _ => Mem.blank
  | (k, c) :: m, a => if k = a then c else Mem.read m a

/-- Forget every entry of an index. -/
def Mem.erase {w : Nat} (m : Mem w) (a : Nat) : Mem w := m.filter fun e => e.1 != a

/-- Insert an entry before the first larger index. -/
def Mem.insert {w : Nat} : Mem w → Nat → BitVec w → Mem w
  | [], a, b => [(a, b)]
  | (k, c) :: m, a, b => if a < k then (a, b) :: (k, c) :: m else (k, c) :: Mem.insert m a b

/-- Write one cell, keeping the canonical form: writing what an unlisted index reads as removes the entry. -/
def Mem.write {w : Nat} (m : Mem w) (a : Nat) (b : BitVec w) : Mem w :=
  if b = Mem.blank then m.erase a else (m.erase a).insert a b

/-- Every index is at least `lo`, the indices rise strictly, and no entry is blank. -/
def Mem.risingFrom {w : Nat} : Nat → Mem w → Bool
  | _, [] => true
  | lo, (k, c) :: m => decide (lo ≤ k) && c != Mem.blank && Mem.risingFrom (k + 1) m

/-- The canonical form of an array of `size` cells. -/
def Mem.wf {w : Nat} (size : Nat) (m : Mem w) : Bool :=
  Mem.risingFrom 0 m && m.all fun e => decide (e.1 < size)

/-- The array that holds a list of values from an index upward. -/
def Mem.ofListFrom {w : Nat} : Nat → List (BitVec w) → Mem w
  | _, [] => []
  | k, b :: bs => if b = Mem.blank then Mem.ofListFrom (k + 1) bs else (k, b) :: Mem.ofListFrom (k + 1) bs

/-- The array that holds a list of values from index 0 (a construction argument, R331, R411). -/
def Mem.ofList {w : Nat} (bs : List (BitVec w)) : Mem w := Mem.ofListFrom 0 bs

end Sys2Proof.Machine
end

