-- ==== Sys2Proof/Config.lean ====
section
/-! DEFINITION. The open parameters of the spec (00_scope.md R8) that an implementation fixes. They are
plain data: a machine carries its own (`State.params`), and no step changes them. -/

namespace Sys2Proof

/-- The open parameters of R8 that act while the machine runs. -/
structure Params where
  /-- `P_RESET`: the status register after reset (R410). -/
  pReset : Byte
  /-- `CYC_IRQ`: the cycles an IRQ entry adds (R384). -/
  cycIrq : Nat
  /-- `CYC_NMI`: the cycles an NMI entry adds (R384). -/
  cycNmi : Nat
  /-- `MMC1_PRG32_SELECT`: the 32 KB bank number for each 5-bit value of the MMC1 register `prg` (R348). -/
  prg32 : Vector Nat 32
deriving DecidableEq, Repr

/-- The value of `MMC1_PRG32_SELECT` at a register value. -/
def Params.prg32Select (ps : Params) (prg : BitVec 5) : Nat := ps.prg32.get prg.toFin

/-- The defaults the spec recommends (R8). DESIGN CHOICE, unsafe: they are the parameters of the one state
`State.reset` (log 5, 6, 7); statements quantify over every `Params`. The table is `(prg & 0x0E) >> 1`. -/
def Params.default : Params where
  pReset := 0x24
  cycIrq := 7
  cycNmi := 7
  prg32 := #v[0, 0, 1, 1, 2, 2, 3, 3, 4, 4, 5, 5, 6, 6, 7, 7,
              0, 0, 1, 1, 2, 2, 3, 3, 4, 4, 5, 5, 6, 6, 7, 7]

end Sys2Proof
end

