-- ==== Sys2Proof/WellFormed.lean ====
section
/-! DEFINITION. Which construction arguments are well formed: the parameters (R8), and a cartridge image
(52_cartridge_mapper.md R331, R333). An instruction is well formed by its type. -/

namespace Sys2Proof

/-- Every term of `Instr` is well formed: "Within an assigned opcode every operand byte value is legal" (R92), and the
constructors' argument types carry the operand widths. A byte sequence that is no instruction is refused by `decode`. -/
def Instr.wellFormed (_ : Instr) : Bool := true

/-- The constraint of R8 on `P_RESET`: bit 5 is 1 and bit 4 is 0. -/
def Params.wellFormed (ps : Params) : Bool := ps.pReset.getLsbD 5 && !ps.pReset.getLsbD 4

/-- The two nametable arrangements a cartridge reports (R332, R350). -/
inductive Arrangement where
  | horizontal
  | vertical
deriving DecidableEq, Repr

/-- Why a cartridge image is rejected: the reason of `LoadRefused` (R333). -/
inductive LoadReason where
  /-- "missing ROM file". -/
  | missingFile
  /-- The first four bytes are not `4E 45 53 1A`. -/
  | badMagic
  /-- `mapper_id` is neither 0 nor 1. -/
  | unsupportedMapper (id : Byte)
  /-- `prg_banks == 0`. -/
  | noPrg
  /-- The file is shorter than its header says. -/
  | shortFile
deriving DecidableEq, Repr

/-- A cartridge image as the construction takes it (R331). `chr` is empty when `chrBanks` is 0 (CHR RAM, R334). -/
structure Image where
  prgBanks : Nat
  prg : List Byte
  chrBanks : Nat
  chr : List Byte
  mapperId : Byte
  headerArrangement : Arrangement
deriving DecidableEq, Repr

/-- The constraints of R331 and R333 on an image, in the order they are checked (log 18). -/
def Image.check (im : Image) : Option LoadReason :=
  if im.mapperId ≠ 0 ∧ im.mapperId ≠ 1 then some (.unsupportedMapper im.mapperId)
  else if im.prgBanks = 0 then some .noPrg
  else if im.prg.length ≠ im.prgBanks * 16384 ∨ im.chr.length ≠ im.chrBanks * 8192 then some .shortFile
  else none

/-- The image can be built into a cartridge. -/
def Image.wellFormed (im : Image) : Bool := im.check.isNone

end Sys2Proof
end

