-- ==== Sys2Proof/Machine/State.lean ====
section
/-! DEFINITION. The state of the machine (10_state.md), the outcomes of a step that are not a next state
(60_exceptions.md R380), and the state right after reset. Plain data throughout. -/

namespace Sys2Proof.Machine

/-- The CPU's registers and hidden state (R20 to R28). -/
structure Cpu where
  /-- Accumulator A (R20). -/
  a : Byte
  /-- Index register X (R20). -/
  x : Byte
  /-- Index register Y (R20). -/
  y : Byte
  /-- Stack pointer SP, the low byte of a page-one address (R21). -/
  sp : Byte
  /-- Program counter PC (R22). -/
  pc : Word
  /-- Status register P: C Z I D B U V N at bits 0 to 7 (R23). -/
  p : Byte
  /-- Pending-cycle counter (R27). -/
  cycles : Nat
  /-- Effective-address scratch (R28; log 11). -/
  adr : Word
deriving DecidableEq, Repr

/-- What the Bus owns (R30). -/
structure Bus where
  /-- CPU RAM, 2048 bytes (R233). -/
  ram : Mem 8
  /-- Cartridge RAM, 8192 bytes (R236). -/
  cartRam : Mem 8
  /-- Master cycle counter (R247). -/
  master : Nat
  /-- The mark an OAM DMA sets (R237). -/
  dmaMark : Bool
  /-- Controller strobe (R240). -/
  ctrlStrobe : Bool
  /-- Controller shift register (R240). -/
  ctrlShift : Byte
  /-- The host's button state (R240). -/
  buttons : Byte
deriving DecidableEq, Repr

/-- A sprite fetched for the coming scanline (R291). -/
structure SpriteUnit where
  lo : Byte
  hi : Byte
  x : Byte
  palette : BitVec 3
  flipH : Bool
  behind : Bool
  isZero : Bool
deriving DecidableEq, Repr

/-- What the PPU owns (R31). -/
structure Ppu where
  /-- Current scanline, 0 to 261 (R280). -/
  scanline : Nat
  /-- Current dot, 0 to 340 (R280). -/
  cycle : Nat
  /-- Toggles when scanline 261 wraps to 0 (R281). -/
  frameComplete : Bool
  /-- NMI request to the Bus (R282). -/
  nmiOut : Bool
  /-- CONTROL, 0x2000 (R262). -/
  control : Byte
  /-- MASK, 0x2001 (R263). -/
  mask : Byte
  /-- STATUS bit 7 (R264). -/
  vblank : Bool
  /-- STATUS bit 6 (R264). -/
  sprite0 : Bool
  /-- STATUS bit 5 (R264). -/
  overflow : Bool
  /-- OAMADDR, 0x2003 (R267). -/
  oamAddr : Byte
  /-- Write-order latch of 0x2005 and 0x2006 (R269). -/
  w : Bool
  /-- PPUDATA read buffer (R272). -/
  dataBuffer : Byte
  /-- Current VRAM address (R273). -/
  v : Scroll
  /-- Temporary VRAM address (R273). -/
  t : Scroll
  /-- Fine horizontal scroll (R273). -/
  fineX : BitVec 3
  /-- Primary OAM, 256 bytes (R268). -/
  oam : Mem 8
  /-- Nametable RAM: byte `o` of table `k` at index `1024 * k + o` (R277). -/
  nt : Mem 8
  /-- Palette RAM, 32 bytes (R278). -/
  pal : Mem 8
  /-- Background shift registers (R284). -/
  bgLo : BitVec 16
  bgHi : BitVec 16
  atLo : BitVec 16
  atHi : BitVec 16
  /-- Secondary OAM: sprite indices, at most 8; `sec_count` is its length (R290; log 12). -/
  sec : List (BitVec 6)
  /-- Sprites fetched for the next scanline, at most 8 (R291). -/
  units : List SpriteUnit
  /-- Pixel output: row `y`, column `x` at index `256 * y + x`, six bits each (R295). -/
  framebuffer : Mem 6
deriving DecidableEq, Repr

/-- The registers of the MMC1 (R345). -/
structure Mmc1 where
  shift : BitVec 5
  count : Nat
  control : BitVec 5
  chr0 : BitVec 5
  chr1 : BitVec 5
  prg : BitVec 5
deriving DecidableEq, Repr

/-- The two mapper variants, a closed set (R335). NROM has no state of its own (R340). -/
inductive Mapper where
  | nrom
  | mmc1 (r : Mmc1)
deriving DecidableEq, Repr

/-- What the Cartridge owns (R32). -/
structure Cart where
  prgBanks : Nat
  /-- PRG ROM, `prgBanks * 16384` bytes (R331). -/
  prg : Mem 8
  chrBanks : Nat
  /-- CHR ROM, or 8192 bytes of CHR RAM when `chrBanks` is 0 (R331, R334). -/
  chr : Mem 8
  headerArrangement : Arrangement
  mapper : Mapper
deriving DecidableEq, Repr

/-- The whole machine: the five blocks of R2 (the DMA block has no state) and the open parameters (R8; log 8). -/
structure State where
  cpu : Cpu
  bus : Bus
  ppu : Ppu
  cart : Cart
  params : Params
deriving DecidableEq, Repr

/-- The faults of R380: the run stops, and no later clock is defined. -/
inductive Fault where
  /-- Raised by any CPU access of 0x6000-0x7FFF with MMC1, fetches included (R352). The spec's own fault: safe. -/
  | unimplemented (addr : Word)
  /-- Raised when the CPU fetches one of the 105 reserved opcode bytes, with the address it was fetched from (R93).
  The spec's own fault: safe. -/
  | illegalOpcode (opcode : Byte) (address : Word)
deriving DecidableEq, Repr

/-- Outcomes in which the model gives no machine or no meaning. -/
inductive Refusal where
  /-- Raised by `exec` for an instruction that has no meaning yet; none is left. Safe. -/
  | notModelled (mnemonic : String)
  /-- Raised by the construction of a machine whose cartridge image is rejected: `LoadRefused` of R333, R380. No step
  raises it. Safe. -/
  | loadRefused (reason : LoadReason)
deriving DecidableEq, Repr

/-- The PPU as it is constructed, with given memory contents (R31, R411). -/
def Ppu.construct (oam nt pal : Mem 8) (framebuffer : Mem 6) : Ppu where
  scanline := 0
  cycle := 0
  frameComplete := false
  nmiOut := false
  control := 0
  mask := 0
  vblank := false
  sprite0 := false
  overflow := false
  oamAddr := 0
  w := false
  dataBuffer := 0
  v := 0
  t := 0
  fineX := 0
  oam := oam
  nt := nt
  pal := pal
  bgLo := 0
  bgHi := 0
  atLo := 0
  atHi := 0
  sec := []
  units := []
  framebuffer := framebuffer

/-- The MMC1 as it is constructed (R345). -/
def Mmc1.construct : Mmc1 where
  shift := 0
  count := 0
  control := 0x0C
  chr0 := 0
  chr1 := 0
  prg := 0

/-- The machine after power-on (R34, R411): the values of R34 for the CPU and the Bus, the construction values of R31
for the PPU. The cartridge is a construction argument without a default; here it is a blank NROM (DESIGN CHOICE, unsafe,
log 3), so the reset vector is 0x0000. Memories list nothing (log 1, 2); the parameters are the spec's defaults (log 5,
6, 7); no button is pressed (log 19). -/
def State.reset : State where
  cpu :=
    { a := 0
      x := 0
      y := 0
      sp := 0xFD
      pc := 0x0000
      p := 0x24
      cycles := 8
      adr := 0 }
  bus :=
    { ram := []
      cartRam := []
      master := 0
      dmaMark := false
      ctrlStrobe := false
      ctrlShift := 0
      buttons := 0 }
  ppu := Ppu.construct [] [] [] []
  cart :=
    { prgBanks := 1
      prg := []
      chrBanks := 1
      chr := []
      headerArrangement := .horizontal
      mapper := .nrom }
  params := Params.default

end Sys2Proof.Machine
end

