-- ==== Sys2Proof/Machine/Flags.lean ====
section
/-! DEFINITION. The status register's flags and the arithmetic that computes them (10_state.md R23 to R26,
41_arithmetic.md, 42_logic_shift.md). -/

namespace Sys2Proof.Machine

/-- Carry, bit 0 (R23). -/
def flagC (p : Byte) : Bool := p.getLsbD 0
/-- Zero, bit 1 (R23). -/
def flagZ (p : Byte) : Bool := p.getLsbD 1
/-- InterruptDisable, bit 2 (R23). -/
def flagI (p : Byte) : Bool := p.getLsbD 2
/-- Decimal, bit 3 (R23). -/
def flagD (p : Byte) : Bool := p.getLsbD 3
/-- Break, bit 4 (R23, R25). -/
def flagB (p : Byte) : Bool := p.getLsbD 4
/-- Unused, bit 5 (R23, R24). -/
def flagU (p : Byte) : Bool := p.getLsbD 5
/-- Overflow, bit 6 (R23). -/
def flagV (p : Byte) : Bool := p.getLsbD 6
/-- Negative, bit 7 (R23). -/
def flagN (p : Byte) : Bool := p.getLsbD 7

/-- `C <- b`. -/
def setC (p : Byte) (b : Bool) : Byte := putBit p 0 b
/-- `Z <- b`. -/
def setZ (p : Byte) (b : Bool) : Byte := putBit p 1 b
/-- `I <- b`. -/
def setI (p : Byte) (b : Bool) : Byte := putBit p 2 b
/-- `D <- b`. -/
def setD (p : Byte) (b : Bool) : Byte := putBit p 3 b
/-- `B <- b`. -/
def setB (p : Byte) (b : Bool) : Byte := putBit p 4 b
/-- `V <- b`. -/
def setV (p : Byte) (b : Bool) : Byte := putBit p 6 b
/-- `N <- b`. -/
def setN (p : Byte) (b : Bool) : Byte := putBit p 7 b

/-- `SetZN(v)`: `Z <- (v == 0); N <- v[7]` (R26). -/
def setZN (p : Byte) (v : Byte) : Byte := setN (setZ p (v == 0)) (v.getLsbD 7)

/-- The status byte PHP and BRK push: bits 4 and 5 set (R25, R211, R222). -/
def pushedByInstruction (p : Byte) : Byte := p ||| 0x30

/-- The status byte IRQ and NMI push: bit 4 clear, bit 5 set (R25, R381). -/
def pushedByInterrupt (p : Byte) : Byte := (p &&& 0xEF) ||| 0x20

/-- The status register PLP and RTI load: bits 4 and 5 of the pulled byte ignored (R24, R25, R213, R223). -/
def pulledStatus (b : Byte) : Byte := (b &&& 0xCF) ||| 0x20

/-- What `Add8` returns. -/
structure Sum8 where
  r : Byte
  cout : Bool
  v : Bool
deriving DecidableEq, Repr

/-- `Add8(a, m, c)` (R150): the 9-bit intermediate, and overflow by the sign-mismatch identity. -/
def add8 (a m : Byte) (c : Bool) : Sum8 :=
  let s := a.toNat + m.toNat + c.toNat
  let r := BitVec.ofNat 8 s
  { r := r, cout := decide (0xFF < s), v := (~~~(a ^^^ m) &&& (a ^^^ r) &&& 0x80) != 0 }

/-- The flags of ADC and SBC from a sum: `C <- cout; V <- v; SetZN(r)` (R151, R152). -/
def setSum (p : Byte) (s : Sum8) : Byte := setZN (setV (setC p s.cout) s.v) s.r

/-- The flags of a compare of a register with `m`: `C <- reg >= m; SetZN(reg - m)` (R153 to R155). -/
def setCompare (p : Byte) (reg m : Byte) : Byte := setZN (setC p (decide (m.toNat ≤ reg.toNat))) (reg - m)

/-- The flags of BIT: `Z <- (A & m) == 0; N <- m[7]; V <- m[6]` (R173). -/
def setBitTest (p : Byte) (a m : Byte) : Byte :=
  setV (setN (setZ p (a &&& m == 0)) (m.getLsbD 7)) (m.getLsbD 6)

/-- The result of a shift or rotate and the bit that leaves it. -/
structure Shifted where
  r : Byte
  cout : Bool
deriving DecidableEq, Repr

/-- ASL: `C <- m[7]; r <- (m << 1) & 0xFF` (R174). -/
def shiftAsl (m : Byte) (_ : Bool) : Shifted := { r := m <<< 1, cout := m.getLsbD 7 }

/-- LSR: `C <- m[0]; r <- m >> 1` (R175). -/
def shiftLsr (m : Byte) (_ : Bool) : Shifted := { r := m >>> 1, cout := m.getLsbD 0 }

/-- ROL: `r <- ((m << 1) | C_old) & 0xFF; C <- m[7]` (R176). -/
def shiftRol (m : Byte) (c : Bool) : Shifted := { r := (m <<< 1) ||| (BitVec.ofBool c).setWidth 8, cout := m.getLsbD 7 }

/-- ROR: `r <- (C_old << 7) | (m >> 1); C <- m[0]` (R177). -/
def shiftRor (m : Byte) (c : Bool) : Shifted :=
  { r := ((BitVec.ofBool c).setWidth 8 <<< 7) ||| (m >>> 1), cout := m.getLsbD 0 }

/-- The flags of a shift or rotate: `C` the bit shifted out, then `SetZN(r)` (R174 to R177). -/
def setShifted (p : Byte) (s : Shifted) : Byte := setZN (setC p s.cout) s.r

end Sys2Proof.Machine
end

