-- ==== Sys2Proof/Machine/Cartridge.lean ====
section
/-! DEFINITION. The cartridge and its two mappers (52_cartridge_mapper.md): the address translation of CPU and PPU
accesses, and the MMC1's serial port. -/

namespace Sys2Proof.Machine

/-- The number of PRG bytes (R331). -/
def Cart.prgSize (c : Cart) : Nat := c.prgBanks * 16384

/-- The number of CHR bytes: ROM by the bank count, or 8192 bytes of RAM (R331, R334). -/
def Cart.chrSize (c : Cart) : Nat := if c.chrBanks = 0 then 8192 else c.chrBanks * 8192

/-- What a mapper answers to a CPU address (R335). -/
inductive Claim where
  /-- `Some(offset)`: the mapper claims the read. -/
  | offset (off : Nat)
  /-- `None`: the caller's own decode continues. -/
  | none
  /-- `Fault`: the MMC1's PRG-RAM window (R352). -/
  | fault
deriving DecidableEq, Repr

/-- `MapCpuRead` of NROM (R340). -/
def nromCpuRead (prgBanks : Nat) (addr : Word) : Claim :=
  if addr.toNat < 0x8000 then .none
  else .offset (addr.toNat % (if 2 ≤ prgBanks then 0x8000 else 0x4000))

/-- The field `prg_mode`, bits 3:2 of the control register (R346). -/
def Mmc1.prgMode (r : Mmc1) : BitVec 2 := r.control.extractLsb' 2 2

/-- The field `chr_mode`, bit 4 of the control register (R346). -/
def Mmc1.chrMode (r : Mmc1) : Bool := r.control.getLsbD 4

/-- `MapCpuRead` of the MMC1 (R348, R352). -/
def mmc1CpuRead (ps : Params) (prgBanks : Nat) (r : Mmc1) (addr : Word) : Claim :=
  if addr.toNat < 0x6000 then .none
  else if addr.toNat < 0x8000 then .fault
  else
    let b := r.prg.toNat % 16
    if r.prgMode.toNat ≤ 1 then .offset (ps.prg32Select r.prg * 0x8000 + addr.toNat % 0x8000)
    else if r.prgMode = 2 then
      if addr.toNat < 0xC000 then .offset (addr.toNat % 0x4000)
      else .offset (b * 0x4000 + addr.toNat % 0x4000)
    else
      if addr.toNat < 0xC000 then .offset (b * 0x4000 + addr.toNat % 0x4000)
      else .offset ((prgBanks - 1) * 0x4000 + addr.toNat % 0x4000)

/-- `MapCpuRead` of the cartridge's mapper (R335). -/
def mapCpuRead (ps : Params) (c : Cart) (addr : Word) : Claim :=
  match c.mapper with
  | .nrom => nromCpuRead c.prgBanks addr
  | .mmc1 r => mmc1CpuRead ps c.prgBanks r addr

/-- `off mod len(PRG)`: every offset is reduced modulo the array's length (R336, R351). -/
def Cart.prgIndex (c : Cart) (off : Nat) : Nat := off % c.prgSize

/-- `off mod len(CHR)` (R338, R351). -/
def Cart.chrIndex (c : Cart) (off : Nat) : Nat := off % c.chrSize

/-- One CPU write into the MMC1's serial port, at an address from 0x8000 up (R347). -/
def mmc1Serial (r : Mmc1) (addr : Word) (d : Byte) : Mmc1 :=
  if d.getLsbD 7 then { r with shift := 0, count := 0, control := 0x0C }
  else
    let shift := r.shift ||| ((d.setWidth 1).setWidth 5 <<< r.count)
    let count := r.count + 1
    if count = 5 then
      let r := { r with shift := 0, count := 0 }
      match (addr.extractLsb' 13 2).toNat with
      | 0 => { r with control := shift }
      | 1 => { r with chr0 := shift }
      | 2 => { r with chr1 := shift }
      | _ => { r with prg := shift }
    else { r with shift := shift, count := count }

/-- What a cartridge answers to a CPU write (R337). -/
inductive WriteClaim where
  /-- `Claimed`: the mapper consumed the byte; the cartridge after it. -/
  | claimed (c : Cart)
  /-- `None`: the caller's own decode continues. -/
  | none
  /-- `Fault`: the MMC1's PRG-RAM window (R352). -/
  | fault
deriving DecidableEq, Repr

/-- `CartCpuWrite(addr, d)` (R337): NROM accepts no write (R341), the MMC1 takes it into its serial port (R347) or
faults (R352). No write changes PRG. -/
def cartCpuWrite (c : Cart) (addr : Word) (d : Byte) : WriteClaim :=
  match c.mapper with
  | .nrom => .none
  | .mmc1 r =>
    if addr.toNat < 0x6000 then .none
    else if addr.toNat < 0x8000 then .fault
    else .claimed { c with mapper := .mmc1 (mmc1Serial r addr d) }

/-- `ChrOffset(a)` of the MMC1, for `a` up to 0x1FFF (R349). -/
def mmc1ChrOffset (r : Mmc1) (a : PpuAddr) : Nat :=
  if r.chrMode = false then (r.chr0.toNat / 2) * 0x2000 + a.toNat % 0x2000
  else if a.toNat < 0x1000 then r.chr0.toNat * 0x1000 + a.toNat % 0x1000
  else r.chr1.toNat * 0x1000 + a.toNat % 0x1000

/-- `MapPpuRead(a)` (R342, R349): both mappers claim exactly the pattern tables, 0x0000-0x1FFF. -/
def mapPpuRead (c : Cart) (a : PpuAddr) : Option Nat :=
  if a.toNat ≤ 0x1FFF then
    match c.mapper with
    | .nrom => some a.toNat
    | .mmc1 r => some (mmc1ChrOffset r a)
  else none

/-- `MapPpuWrite(a)` (R342, R349): as the read, and only with CHR RAM (R334). -/
def mapPpuWrite (c : Cart) (a : PpuAddr) : Option Nat := if c.chrBanks = 0 then mapPpuRead c a else none

/-- `CartPpuRead(a)` (R338). -/
def cartPpuRead (c : Cart) (a : PpuAddr) : Option Byte :=
  match mapPpuRead c a with
  | some off => some (c.chr.read (c.chrIndex off))
  | none => none

/-- `CartPpuWrite(a, d)` (R339): the cartridge after a claimed write. -/
def cartPpuWrite (c : Cart) (a : PpuAddr) (d : Byte) : Option Cart :=
  match mapPpuWrite c a with
  | some off => some { c with chr := c.chr.write (c.chrIndex off) d }
  | none => none

/-- `CartArrangement()` (R350). -/
def cartArrangement (c : Cart) : Arrangement :=
  match c.mapper with
  | .nrom => c.headerArrangement
  | .mmc1 r =>
    match (r.control.extractLsb' 0 2).toNat with
    | 2 => .vertical
    | 3 => .horizontal
    | _ => c.headerArrangement

/-- `mapper_id` (R32, R331): 0 for NROM, 1 for the MMC1 (log 13). -/
def Cart.mapperId (c : Cart) : Byte :=
  match c.mapper with
  | .nrom => 0
  | .mmc1 _ => 1

end Sys2Proof.Machine
end

