-- ==== Sys2Proof/Machine/PpuRegisters.lean ====
section
/-! DEFINITION. The PPU's registers and its address space (51_ppu.md sections 1 and 2). -/

namespace Sys2Proof.Machine

/-- CONTROL.increment, bit 2: the PPUDATA step, 1 or 32 (R262). -/
def Ppu.increment (p : Ppu) : Scroll := if p.control.getLsbD 2 then 32 else 1
/-- CONTROL.spr_table, bit 3 (R262). -/
def Ppu.sprTable (p : Ppu) : Bool := p.control.getLsbD 3
/-- CONTROL.bg_table, bit 4 (R262). -/
def Ppu.bgTable (p : Ppu) : Bool := p.control.getLsbD 4
/-- CONTROL.nmi_enable, bit 7 (R262). -/
def Ppu.nmiEnable (p : Ppu) : Bool := p.control.getLsbD 7
/-- MASK.bg_left, bit 1 (R263). -/
def Ppu.bgLeft (p : Ppu) : Bool := p.mask.getLsbD 1
/-- MASK.spr_left, bit 2 (R263). -/
def Ppu.sprLeft (p : Ppu) : Bool := p.mask.getLsbD 2
/-- MASK.show_bg, bit 3 (R263). -/
def Ppu.showBg (p : Ppu) : Bool := p.mask.getLsbD 3
/-- MASK.show_spr, bit 4 (R263). -/
def Ppu.showSpr (p : Ppu) : Bool := p.mask.getLsbD 4
/-- `rendering`: background or sprites are enabled (R263). -/
def Ppu.rendering (p : Ppu) : Bool := p.showBg || p.showSpr

/-- `coarse_x`, bits 4:0 (R273). -/
def coarseX (v : Scroll) : BitVec 5 := v.extractLsb' 0 5
/-- `coarse_y`, bits 9:5 (R273). -/
def coarseY (v : Scroll) : BitVec 5 := v.extractLsb' 5 5
/-- `fine_y`, bits 14:12 (R273). -/
def fineY (v : Scroll) : BitVec 3 := v.extractLsb' 12 3

/-- `NtTable(a)` (R277): the physical nametable of an address, by the arrangement the cartridge reports. -/
def ntTable (arr : Arrangement) (a : PpuAddr) : Nat :=
  match arr with
  | .horizontal => (a.getLsbD 11).toNat
  | .vertical => (a.getLsbD 10).toNat

/-- The index of `NT[NtTable(a)][a & 0x03FF]` (R274, R277). -/
def ntIndex (c : Cart) (a : PpuAddr) : Nat := ntTable (cartArrangement c) a * 1024 + a.toNat % 1024

/-- `PalIndex(a)` (R278): the four slots 0x10, 0x14, 0x18, 0x1C always fold down; 0x04, 0x08, 0x0C fold to 0 only while
both layers are enabled. -/
def palIndex (p : Ppu) (a : PpuAddr) : Nat :=
  let i := a.toNat % 32
  let i := if i = 0x10 ∨ i = 0x14 ∨ i = 0x18 ∨ i = 0x1C then i - 0x10 else i
  if p.showBg = true ∧ p.showSpr = true ∧ (i = 0x04 ∨ i = 0x08 ∨ i = 0x0C) then 0 else i

/-- `PpuRead(a)` (R275). It has no side effect. -/
def ppuRead (c : Cart) (p : Ppu) (a : PpuAddr) : Byte :=
  match cartPpuRead c a with
  | some b => b
  | none =>
    if a.toNat ≤ 0x1FFF then 0x00
    else if a.toNat ≤ 0x3EFF then p.nt.read (ntIndex c a)
    else p.pal.read (palIndex p a)

/-- `PpuWrite(a, d)` (R276): the PPU and the cartridge after it. -/
def ppuWrite (c : Cart) (p : Ppu) (a : PpuAddr) (d : Byte) : Ppu × Cart :=
  match cartPpuWrite c a d with
  | some c' => (p, c')
  | none =>
    if a.toNat ≤ 0x1FFF then (p, c)
    else if a.toNat ≤ 0x3EFF then ({ p with nt := p.nt.write (ntIndex c a) d }, c)
    else ({ p with pal := p.pal.write (palIndex p a) d }, c)

/-- Write CONTROL: `CONTROL <- d; t[11:10] <- d[1:0]` (R262). -/
def writeControl (d : Byte) (p : Ppu) : Ppu := { p with control := d, t := putField p.t 10 (d.extractLsb' 0 2) }

/-- Write MASK (R263). -/
def writeMask (d : Byte) (p : Ppu) : Ppu := { p with mask := d }

/-- Write OAMADDR (R267). -/
def writeOamAddr (d : Byte) (p : Ppu) : Ppu := { p with oamAddr := d }

/-- Write OAMDATA: store, then step OAMADDR modulo 256 (R268). -/
def writeOamData (d : Byte) (p : Ppu) : Ppu :=
  { p with oam := p.oam.write p.oamAddr.toNat d, oamAddr := p.oamAddr + 1 }

/-- Write SCROLL, first or second by the latch `w` (R269). -/
def writeScroll (d : Byte) (p : Ppu) : Ppu :=
  if p.w = false then
    { p with fineX := d.extractLsb' 0 3, t := putField p.t 0 (d.extractLsb' 3 5), w := true }
  else
    { p with t := putField (putField p.t 12 (d.extractLsb' 0 3)) 5 (d.extractLsb' 3 5), w := false }

/-- Write ADDR, first or second by the latch `w`: the second commits `t` to `v` (R270). -/
def writeAddr (d : Byte) (p : Ppu) : Ppu :=
  if p.w = false then
    { p with t := putBit (putField p.t 8 (d.extractLsb' 0 6)) 14 false, w := true }
  else
    { p with t := putField p.t 0 d, v := putField p.t 0 d, w := false }

/-- `v <- (v + (32 if CONTROL.increment == 1 else 1)) & 0x7FFF` (R271, R272). -/
def stepV (p : Ppu) : Ppu := { p with v := p.v + p.increment }

/-- Write DATA: `PpuWrite(v & 0x3FFF, d)`, then step `v` (R271). -/
def writeData (d : Byte) (p : Ppu) (c : Cart) : Ppu × Cart :=
  let r := ppuWrite c p (p.v.setWidth 14) d
  (stepV r.1, r.2)

/-- Read DATA: the buffer of before, or the byte itself from 0x3F00 up; the buffer takes the byte read; `v` steps (R272). -/
def readData (p : Ppu) (c : Cart) : Byte × Ppu :=
  let a : PpuAddr := p.v.setWidth 14
  let m := ppuRead c p a
  (if 0x3F00 ≤ a.toNat then m else p.dataBuffer, stepV { p with dataBuffer := m })

/-- The STATUS byte: vblank, sprite-0 hit and overflow at bits 7, 6, 5, the rest 0 (R264). -/
def statusByte (p : Ppu) : Byte := putBit (putBit (putBit 0#8 7 p.vblank) 6 p.sprite0) 5 p.overflow

/-- Read STATUS: the byte of before, then vblank and the write latch clear (R266). -/
def readStatus (p : Ppu) : Byte × Ppu := (statusByte p, { p with vblank := false, w := false })

/-- `PpuRegRead(r)` (R261): the registers that are only written read as 0 without effect. -/
def ppuRegRead (r : BitVec 3) (p : Ppu) (c : Cart) : Byte × Ppu :=
  match r.toNat with
  | 2 => readStatus p
  | 4 => (p.oam.read p.oamAddr.toNat, p)
  | 7 => readData p c
  | _ => (0x00, p)

/-- `PpuRegWrite(r, d)` (R261): a write to STATUS is dropped. -/
def ppuRegWrite (r : BitVec 3) (d : Byte) (p : Ppu) (c : Cart) : Ppu × Cart :=
  match r.toNat with
  | 0 => (writeControl d p, c)
  | 1 => (writeMask d p, c)
  | 3 => (writeOamAddr d p, c)
  | 4 => (writeOamData d p, c)
  | 5 => (writeScroll d p, c)
  | 6 => (writeAddr d p, c)
  | 7 => writeData d p c
  | _ => (p, c)

end Sys2Proof.Machine
end

