-- ==== Sys2Proof/Machine/Ops.lean ====
section
/-! DEFINITION. The operations every instruction is made of: the bus (50_bus.md), the OAM DMA (53_oam_dma.md), the stack
(20_memory.md R68), interrupt entry and return (60_exceptions.md, 44_stack_flag_system.md), reset
(70_reset_and_hazards.md), and the side-effect-free read. -/

namespace Sys2Proof.Machine

/-- The outcome of an operation that gives a value of type `α`. -/
abbrev Res (α : Type) := Host.Outcome α Fault Refusal

/-- Go on with the result of an operation; a fault or a refusal ends the step (R380). -/
def andThen {α β : Type} (r : Res α) (f : α → Res β) : Res β :=
  match r with
  | .next a => f a
  | .fault e => .fault e
  | .refused e => .refused e

/-- The machine with its CPU changed. -/
def State.mapCpu (s : State) (f : Cpu → Cpu) : State := { s with cpu := f s.cpu }
/-- The machine with its Bus changed. -/
def State.mapBus (s : State) (f : Bus → Bus) : State := { s with bus := f s.bus }
/-- `PC <- a`. -/
def State.setPc (s : State) (a : Word) : State := s.mapCpu fun c => { c with pc := a }
/-- `adr <- a` (R28). -/
def State.setAdr (s : State) (a : Word) : State := s.mapCpu fun c => { c with adr := a }
/-- `SP <- v`. -/
def State.setSp (s : State) (v : Byte) : State := s.mapCpu fun c => { c with sp := v }
/-- `P <- v`. -/
def State.setP (s : State) (v : Byte) : State := s.mapCpu fun c => { c with p := v }
/-- `cycles <- n` (R27). -/
def State.setCycles (s : State) (n : Nat) : State := s.mapCpu fun c => { c with cycles := n }
/-- `cycles <- cycles + n` (R108, R384). -/
def State.addCycles (s : State) (n : Nat) : State := s.mapCpu fun c => { c with cycles := c.cycles + n }

/-! ## The controller port -/

/-- `CtrlWrite(v)` (R242). -/
def ctrlWrite (d : Byte) (b : Bus) : Bus :=
  if d.getLsbD 0 then { b with ctrlStrobe := true, ctrlShift := b.buttons } else { b with ctrlStrobe := false }

/-- `CtrlRead()` (R241): the byte 0 or 1, and the Bus after it. -/
def ctrlRead (b : Bus) : Byte × Bus :=
  let b := if b.ctrlStrobe then { b with ctrlShift := b.buttons } else b
  ((b.ctrlShift.setWidth 1).setWidth 8,
   if b.ctrlStrobe then b else { b with ctrlShift := (b.ctrlShift >>> 1) ||| 0x80 })

/-! ## The OAM DMA -/

/-- One byte of the copy (R371). -/
def dmaByte (ram : Mem 8) (page oamAddr : Byte) (oam : Mem 8) (i : Nat) : Mem 8 :=
  oam.write ((oamAddr.toNat + i) % 256) (ram.read ((page.toNat * 256 + i) % 2048))

/-- `OamDma(page)` (R371): 256 bytes from CPU RAM into OAM, from the current OAMADDR on, in ascending order. -/
def oamDma (page : Byte) (ram : Mem 8) (p : Ppu) : Ppu :=
  { p with oam := (List.range 256).foldl (dmaByte ram page p.oamAddr) p.oam }

/-! ## The bus -/

/-- `BusRead(addr)` (R231), with its side effects; `CartCpuRead` first (R336). -/
def busRead (addr : Word) (s : State) : Res (Byte × State) :=
  match mapCpuRead s.params s.cart addr with
  | .offset off => .next (s.cart.prg.read (s.cart.prgIndex off), s)
  | .fault => .fault (.unimplemented addr)
  | .none =>
    if addr.toNat ≤ 0x1FFF then .next (s.bus.ram.read (addr.toNat % 0x800), s)
    else if addr.toNat ≤ 0x3FFF then
      let r := ppuRegRead (addr.setWidth 3) s.ppu s.cart
      .next (r.1, { s with ppu := r.2 })
    else if addr = 0x4016 then
      let r := ctrlRead s.bus
      .next (r.1, { s with bus := r.2 })
    else if 0x6000 ≤ addr.toNat ∧ addr.toNat ≤ 0x7FFF then .next (s.bus.cartRam.read (addr.toNat % 0x2000), s)
    else .next (0x00, s)

/-- `BusWrite(addr, v)` (R232); `CartCpuWrite` first (R337). -/
def busWrite (addr : Word) (d : Byte) (s : State) : Res State :=
  match cartCpuWrite s.cart addr d with
  | .claimed c => .next { s with cart := c }
  | .fault => .fault (.unimplemented addr)
  | .none =>
    if addr.toNat ≤ 0x1FFF then
      .next (s.mapBus fun b => { b with ram := b.ram.write (addr.toNat % 0x800) d })
    else if addr.toNat ≤ 0x3FFF then
      let r := ppuRegWrite (addr.setWidth 3) d s.ppu s.cart
      .next { s with ppu := r.1, cart := r.2 }
    else if addr = 0x4014 then
      .next { s with ppu := oamDma d s.bus.ram s.ppu, bus := { s.bus with dmaMark := true } }
    else if addr = 0x4016 then .next (s.mapBus (ctrlWrite d))
    else if 0x6000 ≤ addr.toNat ∧ addr.toNat ≤ 0x7FFF then
      .next (s.mapBus fun b => { b with cartRam := b.cartRam.write (addr.toNat % 0x2000) d })
    else .next s

/-- The read with `read_only = true` (R243; log 17): the byte `BusRead` would return, and no side effect; `none` where it
would fault. -/
def busPeek (addr : Word) (s : State) : Option Byte :=
  match busRead addr s with
  | .next r => some r.1
  | _ => none

/-! ## The stack -/

/-- The address the stack pointer denotes: `0x0100 | SP` (R21). -/
def stackAddr (sp : Byte) : Word := 0x0100#16 ||| zext16 sp

/-- `Push(v)` (R68). -/
def push (v : Byte) (s : State) : Res State :=
  andThen (busWrite (stackAddr s.cpu.sp) v s) fun s => .next (s.setSp (s.cpu.sp - 1))

/-- `Pull()` (R68). -/
def pull (s : State) : Res (Byte × State) :=
  let s := s.setSp (s.cpu.sp + 1)
  busRead (stackAddr s.cpu.sp) s

/-! ## Interrupts -/

/-- The NMI vector (R389). -/
def vectorNmi : Word := 0xFFFA
/-- The RESET vector (R389). -/
def vectorReset : Word := 0xFFFC
/-- The IRQ/BRK vector (R389). -/
def vectorIrq : Word := 0xFFFE

/-- Load PC from a vector, low byte first (R62, R381). -/
def loadVector (vec : Word) (s : State) : Res State :=
  andThen (busRead vec s) fun lo =>
  andThen (busRead (vec + 1) lo.2) fun hi => .next (hi.2.setPc (mkWord hi.1 lo.1))

/-- Taking an exception, shared by NMI, IRQ and BRK (R381, R222): push PC high, PC low and a status byte, set
InterruptDisable, load PC from the vector. -/
def takeException (status : Byte) (vec : Word) (s : State) : Res State :=
  andThen (push (hiByte s.cpu.pc) s) fun s1 =>
  andThen (push (loByte s1.cpu.pc) s1) fun s2 =>
  andThen (push status s2) fun s3 => loadVector vec (s3.setP (setI s3.cpu.p true))

/-- `InterruptEntry(vec, cost)` (R381, R384). -/
def interruptEntry (vec : Word) (cost : Nat) (s : State) : Res State :=
  andThen (takeException (pushedByInterrupt s.cpu.p) vec s) fun s => .next (s.addCycles cost)

/-- `CpuNmi()` (R382). -/
def cpuNmi (s : State) : Res State := interruptEntry vectorNmi s.params.cycNmi s

/-- `CpuIrq()` (R383): nothing while `I == 1`. -/
def cpuIrq (s : State) : Res State :=
  if flagI s.cpu.p = false then interruptEntry vectorIrq s.params.cycIrq s else .next s

/-- The return from an exception: status, PC low, PC high (R223). -/
def returnFromException (s : State) : Res State :=
  andThen (pull s) fun b =>
  let s := b.2.setP (pulledStatus b.1)
  andThen (pull s) fun lo =>
  andThen (pull lo.2) fun hi => .next (hi.2.setPc (mkWord hi.1 lo.1))

/-! ## Reset -/

/-- `CpuReset()` (R410). -/
def cpuReset (s : State) : Res State :=
  let s := s.mapCpu fun c => { c with a := 0, x := 0, y := 0, sp := 0xFD, p := s.params.pReset, adr := 0 }
  andThen (loadVector vectorReset s) fun s => .next (s.setCycles 8)

/-- `Bus.reset()` (R246, R412): the master counter, the DMA mark and the CPU; nothing else. -/
def busReset (s : State) : Res State := cpuReset (s.mapBus fun b => { b with master := 0, dmaMark := false })

end Sys2Proof.Machine
end

