-- ==== Sys2Proof/Machine/Operands.lean ====
section
/-! DEFINITION. The addressing-mode resolvers (30_encoding.md section 3) and the shapes of instruction built on them:
read a value, store a register, read-modify-write, branch. An instruction's operand bytes are fetched before it runs
(Machine/Fetch.lean; log 10), so PC is the address after its last byte (R22). -/

namespace Sys2Proof.Machine

/-- An indexed address and whether the addition changed the high byte (R102). -/
def indexed (base : Word) (index : Byte) (s : State) : Res (Bool × State) :=
  let adr := base + zext16 index
  .next (pageDiffers adr base, s.setAdr adr)

/-- Read a pointer's low byte at `pl` and its high byte at `ph`, in that order (R104 to R106). -/
def readPointer (pl ph : Word) (s : State) : Res (Word × State) :=
  andThen (busRead pl s) fun lo =>
  andThen (busRead ph lo.2) fun hi => .next (mkWord hi.1 lo.1, hi.2)

/-- The address after `ptr` inside `ptr`'s page: `(ptr & 0xFF00) | ((ptr + 1) & 0x00FF)` (R104). -/
def nextInPage (ptr : Word) : Word := (ptr &&& 0xFF00) ||| ((ptr + 1) &&& 0x00FF)

/-- `Resolve(mode)`: set `adr` and answer `cross` (R94 to R106). IMP and ACC have no address, and REL leaves the addition
to the branch (R100); the immediate byte stands just before PC (R96). -/
def resolve (o : Operand) (s : State) : Res (Bool × State) :=
  match o with
  | .imp => .next (false, s)
  | .acc => .next (false, s)
  | .imm _ => .next (false, s.setAdr (s.cpu.pc - 1))
  | .zp0 z => .next (false, s.setAdr (zext16 z))
  | .zpx z => .next (false, s.setAdr (zext16 (z + s.cpu.x)))
  | .zpy z => .next (false, s.setAdr (zext16 (z + s.cpu.y)))
  | .rel _ => .next (false, s)
  | .abs a => .next (false, s.setAdr a)
  | .abx a => indexed a s.cpu.x s
  | .aby a => indexed a s.cpu.y s
  | .ind a => andThen (readPointer a (nextInPage a) s) fun r => .next (false, r.2.setAdr r.1)
  | .izx z =>
    andThen (readPointer (zext16 (z + s.cpu.x)) (zext16 (z + s.cpu.x + 1)) s) fun r => .next (false, r.2.setAdr r.1)
  | .izy z => andThen (readPointer (zext16 z) (zext16 (z + 1)) s) fun r => indexed r.1 r.2.cpu.y r.2

/-- The value an instruction reads (section 3 of 30_encoding.md): the immediate byte, which was the bus read of the
fetch (R96), the accumulator (R95), or `MemRead(adr, 1)`. -/
def readOperand (o : Operand) (s : State) : Res (Byte × State) :=
  match o with
  | .imm b => .next (b, s)
  | .acc => .next (s.cpu.a, s)
  | _ => busRead s.cpu.adr s

/-- Write the result of a read-modify-write instruction (R178). -/
def writeOperand (o : Operand) (v : Byte) (s : State) : Res State :=
  match o with
  | .acc => .next (s.mapCpu fun c => { c with a := v })
  | _ => busWrite s.cpu.adr v s

/-- An instruction that reads one value and changes registers by it; rows marked `+` owe the page-cross cycle (R107,
R108). -/
def readOp (base : Nat) (plus : Bool) (o : Operand) (effect : Byte → Cpu → Cpu) (s : State) : Res State :=
  andThen (resolve o (s.setCycles base)) fun r =>
  andThen (readOperand o r.2) fun m =>
  .next ((m.2.mapCpu (effect m.1)).addCycles (plus && r.1).toNat)

/-- An instruction that stores a register: one write, no read of the target, no extra cycle (R107, R134). -/
def storeOp (base : Nat) (o : Operand) (src : Cpu → Byte) (s : State) : Res State :=
  andThen (resolve o (s.setCycles base)) fun r => busWrite r.2.cpu.adr (src r.2.cpu) r.2

/-- An instruction that reads a value, writes a result back and sets flags: one read, one write (R64, R156, R178).
`f` gives the result and the status register from the value and the status register before. -/
def modifyOp (base : Nat) (o : Operand) (f : Byte → Byte → Byte × Byte) (s : State) : Res State :=
  andThen (resolve o (s.setCycles base)) fun r =>
  andThen (readOperand o r.2) fun m =>
  andThen (writeOperand o (f m.1 m.2.cpu.p).1 m.2) fun s => .next (s.setP (f m.1 s.cpu.p).2)

/-- An instruction that touches registers only (mode IMP). -/
def registerOp (base : Nat) (effect : Cpu → Cpu) (s : State) : Res State := .next ((s.setCycles base).mapCpu effect)

/-- The common branch operation (R193), base 2 cycles; PC is already the next instruction's. -/
def branchOp (condition : Byte → Bool) (off : Byte) (s : State) : Res State :=
  let s := s.setCycles 2
  if condition s.cpu.p then
    let target := s.cpu.pc + sext8 off
    let extra := if pageDiffers target s.cpu.pc then 2 else 1
    .next ((s.setPc target).addCycles extra)
  else .next s

end Sys2Proof.Machine
end

