-- ==== Sys2Proof/Machine/Arithmetic.lean ====
section
/-! DEFINITION. Arithmetic, compare, increment and decrement instructions (41_arithmetic.md). -/

namespace Sys2Proof.Machine

/-- ADC: `A` and `C V Z N` from `Add8(A, m, C)`, whatever `D` is (R151, R163). -/
def adcEffect (m : Byte) (c : Cpu) : Cpu := 
  let s := add8 c.a m (flagC c.p)
  { c with a := s.r, p := setSum c.p s }

/-- ADC ($nn,X): 61, 6 cycles (R151). -/
def execAdcIzx (z : Byte) (s : State) : Res State := readOp 6 false (.izx z) adcEffect s

/-- ADC $nn: 65, 3 cycles (R151). -/
def execAdcZp0 (z : Byte) (s : State) : Res State := readOp 3 false (.zp0 z) adcEffect s

/-- ADC #$nn: 69, 2 cycles (R151). -/
def execAdcImm (b : Byte) (s : State) : Res State := readOp 2 false (.imm b) adcEffect s

/-- ADC $nnnn: 6D, 4 cycles (R151). -/
def execAdcAbs (a : Word) (s : State) : Res State := readOp 4 false (.abs a) adcEffect s

/-- ADC ($nn),Y: 71, 5+ cycles (R151). -/
def execAdcIzy (z : Byte) (s : State) : Res State := readOp 5 true (.izy z) adcEffect s

/-- ADC $nn,X: 75, 4 cycles (R151). -/
def execAdcZpx (z : Byte) (s : State) : Res State := readOp 4 false (.zpx z) adcEffect s

/-- ADC $nnnn,Y: 79, 4+ cycles (R151). -/
def execAdcAby (a : Word) (s : State) : Res State := readOp 4 true (.aby a) adcEffect s

/-- ADC $nnnn,X: 7D, 4+ cycles (R151). -/
def execAdcAbx (a : Word) (s : State) : Res State := readOp 4 true (.abx a) adcEffect s

/-- SBC: as ADC with the operand XORed with 0xFF (R152, R163). -/
def sbcEffect (m : Byte) (c : Cpu) : Cpu := 
  let s := add8 c.a (m ^^^ 0xFF) (flagC c.p)
  { c with a := s.r, p := setSum c.p s }

/-- SBC ($nn,X): E1, 6 cycles (R152). -/
def execSbcIzx (z : Byte) (s : State) : Res State := readOp 6 false (.izx z) sbcEffect s

/-- SBC $nn: E5, 3 cycles (R152). -/
def execSbcZp0 (z : Byte) (s : State) : Res State := readOp 3 false (.zp0 z) sbcEffect s

/-- SBC #$nn: E9, 2 cycles (R152). -/
def execSbcImm (b : Byte) (s : State) : Res State := readOp 2 false (.imm b) sbcEffect s

/-- SBC $nnnn: ED, 4 cycles (R152). -/
def execSbcAbs (a : Word) (s : State) : Res State := readOp 4 false (.abs a) sbcEffect s

/-- SBC ($nn),Y: F1, 5+ cycles (R152). -/
def execSbcIzy (z : Byte) (s : State) : Res State := readOp 5 true (.izy z) sbcEffect s

/-- SBC $nn,X: F5, 4 cycles (R152). -/
def execSbcZpx (z : Byte) (s : State) : Res State := readOp 4 false (.zpx z) sbcEffect s

/-- SBC $nnnn,Y: F9, 4+ cycles (R152). -/
def execSbcAby (a : Word) (s : State) : Res State := readOp 4 true (.aby a) sbcEffect s

/-- SBC $nnnn,X: FD, 4+ cycles (R152). -/
def execSbcAbx (a : Word) (s : State) : Res State := readOp 4 true (.abx a) sbcEffect s

/-- CMP: `C Z N` from A compared with `m` (R153). -/
def cmpEffect (m : Byte) (c : Cpu) : Cpu := { c with p := setCompare c.p c.a m }

/-- CMP ($nn,X): C1, 6 cycles (R153). -/
def execCmpIzx (z : Byte) (s : State) : Res State := readOp 6 false (.izx z) cmpEffect s

/-- CMP $nn: C5, 3 cycles (R153). -/
def execCmpZp0 (z : Byte) (s : State) : Res State := readOp 3 false (.zp0 z) cmpEffect s

/-- CMP #$nn: C9, 2 cycles (R153). -/
def execCmpImm (b : Byte) (s : State) : Res State := readOp 2 false (.imm b) cmpEffect s

/-- CMP $nnnn: CD, 4 cycles (R153). -/
def execCmpAbs (a : Word) (s : State) : Res State := readOp 4 false (.abs a) cmpEffect s

/-- CMP ($nn),Y: D1, 5+ cycles (R153). -/
def execCmpIzy (z : Byte) (s : State) : Res State := readOp 5 true (.izy z) cmpEffect s

/-- CMP $nn,X: D5, 4 cycles (R153). -/
def execCmpZpx (z : Byte) (s : State) : Res State := readOp 4 false (.zpx z) cmpEffect s

/-- CMP $nnnn,Y: D9, 4+ cycles (R153). -/
def execCmpAby (a : Word) (s : State) : Res State := readOp 4 true (.aby a) cmpEffect s

/-- CMP $nnnn,X: DD, 4+ cycles (R153). -/
def execCmpAbx (a : Word) (s : State) : Res State := readOp 4 true (.abx a) cmpEffect s

/-- CPX: `C Z N` from X compared with `m` (R154). -/
def cpxEffect (m : Byte) (c : Cpu) : Cpu := { c with p := setCompare c.p c.x m }

/-- CPX #$nn: E0, 2 cycles (R154). -/
def execCpxImm (b : Byte) (s : State) : Res State := readOp 2 false (.imm b) cpxEffect s

/-- CPX $nn: E4, 3 cycles (R154). -/
def execCpxZp0 (z : Byte) (s : State) : Res State := readOp 3 false (.zp0 z) cpxEffect s

/-- CPX $nnnn: EC, 4 cycles (R154). -/
def execCpxAbs (a : Word) (s : State) : Res State := readOp 4 false (.abs a) cpxEffect s

/-- CPY: `C Z N` from Y compared with `m` (R155). -/
def cpyEffect (m : Byte) (c : Cpu) : Cpu := { c with p := setCompare c.p c.y m }

/-- CPY #$nn: C0, 2 cycles (R155). -/
def execCpyImm (b : Byte) (s : State) : Res State := readOp 2 false (.imm b) cpyEffect s

/-- CPY $nn: C4, 3 cycles (R155). -/
def execCpyZp0 (z : Byte) (s : State) : Res State := readOp 3 false (.zp0 z) cpyEffect s

/-- CPY $nnnn: CC, 4 cycles (R155). -/
def execCpyAbs (a : Word) (s : State) : Res State := readOp 4 false (.abs a) cpyEffect s

/-- INC: the byte plus one, and `SetZN` of it; `C` and `V` unchanged (R156). -/
def incResult (m p : Byte) : Byte × Byte := (m + 1, setZN p (m + 1))

/-- INC $nn: E6, 5 cycles (R156). -/
def execIncZp0 (z : Byte) (s : State) : Res State := modifyOp 5 (.zp0 z) incResult s

/-- INC $nnnn: EE, 6 cycles (R156). -/
def execIncAbs (a : Word) (s : State) : Res State := modifyOp 6 (.abs a) incResult s

/-- INC $nn,X: F6, 6 cycles (R156). -/
def execIncZpx (z : Byte) (s : State) : Res State := modifyOp 6 (.zpx z) incResult s

/-- INC $nnnn,X: FE, 7 cycles (R156). -/
def execIncAbx (a : Word) (s : State) : Res State := modifyOp 7 (.abx a) incResult s

/-- DEC: the byte minus one, and `SetZN` of it; `C` and `V` unchanged (R159). -/
def decResult (m p : Byte) : Byte × Byte := (m - 1, setZN p (m - 1))

/-- DEC $nn: C6, 5 cycles (R159). -/
def execDecZp0 (z : Byte) (s : State) : Res State := modifyOp 5 (.zp0 z) decResult s

/-- DEC $nnnn: CE, 6 cycles (R159). -/
def execDecAbs (a : Word) (s : State) : Res State := modifyOp 6 (.abs a) decResult s

/-- DEC $nn,X: D6, 6 cycles (R159). -/
def execDecZpx (z : Byte) (s : State) : Res State := modifyOp 6 (.zpx z) decResult s

/-- DEC $nnnn,X: DE, 7 cycles (R159). -/
def execDecAbx (a : Word) (s : State) : Res State := modifyOp 7 (.abx a) decResult s

/-- INX: `X <- (X + 1) mod 256; SetZN(X)` (R157). -/
def inxEffect (c : Cpu) : Cpu := { c with x := c.x + 1, p := setZN c.p (c.x + 1) }

/-- INX: E8, 2 cycles (R157). -/
def execInx (s : State) : Res State := registerOp 2 inxEffect s

/-- INY: `Y <- (Y + 1) mod 256; SetZN(Y)` (R158). -/
def inyEffect (c : Cpu) : Cpu := { c with y := c.y + 1, p := setZN c.p (c.y + 1) }

/-- INY: C8, 2 cycles (R158). -/
def execIny (s : State) : Res State := registerOp 2 inyEffect s

/-- DEX: `X <- (X - 1) mod 256; SetZN(X)` (R160). -/
def dexEffect (c : Cpu) : Cpu := { c with x := c.x - 1, p := setZN c.p (c.x - 1) }

/-- DEX: CA, 2 cycles (R160). -/
def execDex (s : State) : Res State := registerOp 2 dexEffect s

/-- DEY: `Y <- (Y - 1) mod 256; SetZN(Y)` (R161). -/
def deyEffect (c : Cpu) : Cpu := { c with y := c.y - 1, p := setZN c.p (c.y - 1) }

/-- DEY: 88, 2 cycles (R161). -/
def execDey (s : State) : Res State := registerOp 2 deyEffect s

end Sys2Proof.Machine
end

