-- ==== Sys2Proof/Machine/Control.lean ====
section
/-! DEFINITION. Jumps, subroutine call and return, conditional branches (43_control_flow.md). -/

namespace Sys2Proof.Machine

/-- JMP $nnnn: 4C, 3 cycles (R190). -/
def execJmpAbs (a : Word) (s : State) : Res State :=
  andThen (resolve (.abs a) (s.setCycles 3)) fun r => .next (r.2.setPc r.2.cpu.adr)

/-- JMP ($nnnn): 6C, 5 cycles (R190). -/
def execJmpInd (a : Word) (s : State) : Res State :=
  andThen (resolve (.ind a) (s.setCycles 5)) fun r => .next (r.2.setPc r.2.cpu.adr)

/-- JSR $nnnn: 20, 6 cycles (R191): push the address of the instruction's last byte, high byte first, and jump. -/
def execJsr (a : Word) (s : State) : Res State :=
  andThen (resolve (.abs a) (s.setCycles 6)) fun r =>
  let ret := r.2.cpu.pc - 1
  andThen (push (hiByte ret) r.2) fun s1 =>
  andThen (push (loByte ret) s1) fun s2 => .next (s2.setPc s2.cpu.adr)

/-- RTS: 60, 6 cycles (R192): pull low, pull high, add one. -/
def execRts (s : State) : Res State :=
  andThen (pull (s.setCycles 6)) fun lo =>
  andThen (pull lo.2) fun hi => .next (hi.2.setPc (mkWord hi.1 lo.1 + 1))

/-- BCC: 90, 2b cycles; taken when `C == 0` (R194, R193). -/
def execBcc (off : Byte) (s : State) : Res State := branchOp (fun p => !flagC p) off s

/-- BCS: B0, 2b cycles; taken when `C == 1` (R195, R193). -/
def execBcs (off : Byte) (s : State) : Res State := branchOp (fun p => flagC p) off s

/-- BEQ: F0, 2b cycles; taken when `Z == 1` (R196, R193). -/
def execBeq (off : Byte) (s : State) : Res State := branchOp (fun p => flagZ p) off s

/-- BNE: D0, 2b cycles; taken when `Z == 0` (R197, R193). -/
def execBne (off : Byte) (s : State) : Res State := branchOp (fun p => !flagZ p) off s

/-- BMI: 30, 2b cycles; taken when `N == 1` (R198, R193). -/
def execBmi (off : Byte) (s : State) : Res State := branchOp (fun p => flagN p) off s

/-- BPL: 10, 2b cycles; taken when `N == 0` (R199, R193). -/
def execBpl (off : Byte) (s : State) : Res State := branchOp (fun p => !flagN p) off s

/-- BVC: 50, 2b cycles; taken when `V == 0` (R200, R193). -/
def execBvc (off : Byte) (s : State) : Res State := branchOp (fun p => !flagV p) off s

/-- BVS: 70, 2b cycles; taken when `V == 1` (R201, R193). -/
def execBvs (off : Byte) (s : State) : Res State := branchOp (fun p => flagV p) off s

end Sys2Proof.Machine
end

