-- ==== Sys2Proof/Machine/LoadStore.lean ====
section
/-! DEFINITION. Load, store and register-transfer instructions (40_load_store_transfer.md). -/

namespace Sys2Proof.Machine

/-- LDA: `A <- m; SetZN(A)` (R131). -/
def ldaEffect (m : Byte) (c : Cpu) : Cpu := { c with a := m, p := setZN c.p m }

/-- LDA ($nn,X): A1, 6 cycles (R131). -/
def execLdaIzx (z : Byte) (s : State) : Res State := readOp 6 false (.izx z) ldaEffect s

/-- LDA $nn: A5, 3 cycles (R131). -/
def execLdaZp0 (z : Byte) (s : State) : Res State := readOp 3 false (.zp0 z) ldaEffect s

/-- LDA #$nn: A9, 2 cycles (R131). -/
def execLdaImm (b : Byte) (s : State) : Res State := readOp 2 false (.imm b) ldaEffect s

/-- LDA $nnnn: AD, 4 cycles (R131). -/
def execLdaAbs (a : Word) (s : State) : Res State := readOp 4 false (.abs a) ldaEffect s

/-- LDA ($nn),Y: B1, 5+ cycles (R131). -/
def execLdaIzy (z : Byte) (s : State) : Res State := readOp 5 true (.izy z) ldaEffect s

/-- LDA $nn,X: B5, 4 cycles (R131). -/
def execLdaZpx (z : Byte) (s : State) : Res State := readOp 4 false (.zpx z) ldaEffect s

/-- LDA $nnnn,Y: B9, 4+ cycles (R131). -/
def execLdaAby (a : Word) (s : State) : Res State := readOp 4 true (.aby a) ldaEffect s

/-- LDA $nnnn,X: BD, 4+ cycles (R131). -/
def execLdaAbx (a : Word) (s : State) : Res State := readOp 4 true (.abx a) ldaEffect s

/-- LDX: `X <- m; SetZN(X)` (R132). -/
def ldxEffect (m : Byte) (c : Cpu) : Cpu := { c with x := m, p := setZN c.p m }

/-- LDX #$nn: A2, 2 cycles (R132). -/
def execLdxImm (b : Byte) (s : State) : Res State := readOp 2 false (.imm b) ldxEffect s

/-- LDX $nn: A6, 3 cycles (R132). -/
def execLdxZp0 (z : Byte) (s : State) : Res State := readOp 3 false (.zp0 z) ldxEffect s

/-- LDX $nnnn: AE, 4 cycles (R132). -/
def execLdxAbs (a : Word) (s : State) : Res State := readOp 4 false (.abs a) ldxEffect s

/-- LDX $nn,Y: B6, 4 cycles (R132). -/
def execLdxZpy (z : Byte) (s : State) : Res State := readOp 4 false (.zpy z) ldxEffect s

/-- LDX $nnnn,Y: BE, 4+ cycles (R132). -/
def execLdxAby (a : Word) (s : State) : Res State := readOp 4 true (.aby a) ldxEffect s

/-- LDY: `Y <- m; SetZN(Y)` (R133). -/
def ldyEffect (m : Byte) (c : Cpu) : Cpu := { c with y := m, p := setZN c.p m }

/-- LDY #$nn: A0, 2 cycles (R133). -/
def execLdyImm (b : Byte) (s : State) : Res State := readOp 2 false (.imm b) ldyEffect s

/-- LDY $nn: A4, 3 cycles (R133). -/
def execLdyZp0 (z : Byte) (s : State) : Res State := readOp 3 false (.zp0 z) ldyEffect s

/-- LDY $nnnn: AC, 4 cycles (R133). -/
def execLdyAbs (a : Word) (s : State) : Res State := readOp 4 false (.abs a) ldyEffect s

/-- LDY $nn,X: B4, 4 cycles (R133). -/
def execLdyZpx (z : Byte) (s : State) : Res State := readOp 4 false (.zpx z) ldyEffect s

/-- LDY $nnnn,X: BC, 4+ cycles (R133). -/
def execLdyAbx (a : Word) (s : State) : Res State := readOp 4 true (.abx a) ldyEffect s

/-- STA ($nn,X): 81, 6 cycles (R134). -/
def execStaIzx (z : Byte) (s : State) : Res State := storeOp 6 (.izx z) Cpu.a s

/-- STA $nn: 85, 3 cycles (R134). -/
def execStaZp0 (z : Byte) (s : State) : Res State := storeOp 3 (.zp0 z) Cpu.a s

/-- STA $nnnn: 8D, 4 cycles (R134). -/
def execStaAbs (a : Word) (s : State) : Res State := storeOp 4 (.abs a) Cpu.a s

/-- STA ($nn),Y: 91, 6 cycles (R134). -/
def execStaIzy (z : Byte) (s : State) : Res State := storeOp 6 (.izy z) Cpu.a s

/-- STA $nn,X: 95, 4 cycles (R134). -/
def execStaZpx (z : Byte) (s : State) : Res State := storeOp 4 (.zpx z) Cpu.a s

/-- STA $nnnn,Y: 99, 5 cycles (R134). -/
def execStaAby (a : Word) (s : State) : Res State := storeOp 5 (.aby a) Cpu.a s

/-- STA $nnnn,X: 9D, 5 cycles (R134). -/
def execStaAbx (a : Word) (s : State) : Res State := storeOp 5 (.abx a) Cpu.a s

/-- STX $nn: 86, 3 cycles (R135). -/
def execStxZp0 (z : Byte) (s : State) : Res State := storeOp 3 (.zp0 z) Cpu.x s

/-- STX $nnnn: 8E, 4 cycles (R135). -/
def execStxAbs (a : Word) (s : State) : Res State := storeOp 4 (.abs a) Cpu.x s

/-- STX $nn,Y: 96, 4 cycles (R135). -/
def execStxZpy (z : Byte) (s : State) : Res State := storeOp 4 (.zpy z) Cpu.x s

/-- STY $nn: 84, 3 cycles (R136). -/
def execStyZp0 (z : Byte) (s : State) : Res State := storeOp 3 (.zp0 z) Cpu.y s

/-- STY $nnnn: 8C, 4 cycles (R136). -/
def execStyAbs (a : Word) (s : State) : Res State := storeOp 4 (.abs a) Cpu.y s

/-- STY $nn,X: 94, 4 cycles (R136). -/
def execStyZpx (z : Byte) (s : State) : Res State := storeOp 4 (.zpx z) Cpu.y s

/-- TAX: `X <- A; SetZN(X)` (R137). -/
def taxEffect (c : Cpu) : Cpu := { c with x := c.a, p := setZN c.p c.a }

/-- TAX: AA, 2 cycles (R137). -/
def execTax (s : State) : Res State := registerOp 2 taxEffect s

/-- TAY: `Y <- A; SetZN(Y)` (R138). -/
def tayEffect (c : Cpu) : Cpu := { c with y := c.a, p := setZN c.p c.a }

/-- TAY: A8, 2 cycles (R138). -/
def execTay (s : State) : Res State := registerOp 2 tayEffect s

/-- TXA: `A <- X; SetZN(A)` (R139). -/
def txaEffect (c : Cpu) : Cpu := { c with a := c.x, p := setZN c.p c.x }

/-- TXA: 8A, 2 cycles (R139). -/
def execTxa (s : State) : Res State := registerOp 2 txaEffect s

/-- TYA: `A <- Y; SetZN(A)` (R140). -/
def tyaEffect (c : Cpu) : Cpu := { c with a := c.y, p := setZN c.p c.y }

/-- TYA: 98, 2 cycles (R140). -/
def execTya (s : State) : Res State := registerOp 2 tyaEffect s

/-- TSX: `X <- SP; SetZN(X)` (R141). -/
def tsxEffect (c : Cpu) : Cpu := { c with x := c.sp, p := setZN c.p c.sp }

/-- TSX: BA, 2 cycles (R141). -/
def execTsx (s : State) : Res State := registerOp 2 tsxEffect s

/-- TXS: `SP <- X`, no flag (R142). -/
def txsEffect (c : Cpu) : Cpu := { c with sp := c.x }

/-- TXS: 9A, 2 cycles (R142). -/
def execTxs (s : State) : Res State := registerOp 2 txsEffect s

end Sys2Proof.Machine
end

