-- ==== Sys2Proof/Machine/Logic.lean ====
section
/-! DEFINITION. Logic, bit-test, shift and rotate instructions (42_logic_shift.md). -/

namespace Sys2Proof.Machine

/-- AND: `A <- A & m; SetZN(A)` (R170). -/
def andEffect (m : Byte) (c : Cpu) : Cpu := { c with a := c.a &&& m, p := setZN c.p (c.a &&& m) }

/-- AND ($nn,X): 21, 6 cycles (R170). -/
def execAndIzx (z : Byte) (s : State) : Res State := readOp 6 false (.izx z) andEffect s

/-- AND $nn: 25, 3 cycles (R170). -/
def execAndZp0 (z : Byte) (s : State) : Res State := readOp 3 false (.zp0 z) andEffect s

/-- AND #$nn: 29, 2 cycles (R170). -/
def execAndImm (b : Byte) (s : State) : Res State := readOp 2 false (.imm b) andEffect s

/-- AND $nnnn: 2D, 4 cycles (R170). -/
def execAndAbs (a : Word) (s : State) : Res State := readOp 4 false (.abs a) andEffect s

/-- AND ($nn),Y: 31, 5+ cycles (R170). -/
def execAndIzy (z : Byte) (s : State) : Res State := readOp 5 true (.izy z) andEffect s

/-- AND $nn,X: 35, 4 cycles (R170). -/
def execAndZpx (z : Byte) (s : State) : Res State := readOp 4 false (.zpx z) andEffect s

/-- AND $nnnn,Y: 39, 4+ cycles (R170). -/
def execAndAby (a : Word) (s : State) : Res State := readOp 4 true (.aby a) andEffect s

/-- AND $nnnn,X: 3D, 4+ cycles (R170). -/
def execAndAbx (a : Word) (s : State) : Res State := readOp 4 true (.abx a) andEffect s

/-- ORA: `A <- A | m; SetZN(A)` (R171). -/
def oraEffect (m : Byte) (c : Cpu) : Cpu := { c with a := c.a ||| m, p := setZN c.p (c.a ||| m) }

/-- ORA ($nn,X): 01, 6 cycles (R171). -/
def execOraIzx (z : Byte) (s : State) : Res State := readOp 6 false (.izx z) oraEffect s

/-- ORA $nn: 05, 3 cycles (R171). -/
def execOraZp0 (z : Byte) (s : State) : Res State := readOp 3 false (.zp0 z) oraEffect s

/-- ORA #$nn: 09, 2 cycles (R171). -/
def execOraImm (b : Byte) (s : State) : Res State := readOp 2 false (.imm b) oraEffect s

/-- ORA $nnnn: 0D, 4 cycles (R171). -/
def execOraAbs (a : Word) (s : State) : Res State := readOp 4 false (.abs a) oraEffect s

/-- ORA ($nn),Y: 11, 5+ cycles (R171). -/
def execOraIzy (z : Byte) (s : State) : Res State := readOp 5 true (.izy z) oraEffect s

/-- ORA $nn,X: 15, 4 cycles (R171). -/
def execOraZpx (z : Byte) (s : State) : Res State := readOp 4 false (.zpx z) oraEffect s

/-- ORA $nnnn,Y: 19, 4+ cycles (R171). -/
def execOraAby (a : Word) (s : State) : Res State := readOp 4 true (.aby a) oraEffect s

/-- ORA $nnnn,X: 1D, 4+ cycles (R171). -/
def execOraAbx (a : Word) (s : State) : Res State := readOp 4 true (.abx a) oraEffect s

/-- EOR: `A <- A ^ m; SetZN(A)` (R172). -/
def eorEffect (m : Byte) (c : Cpu) : Cpu := { c with a := c.a ^^^ m, p := setZN c.p (c.a ^^^ m) }

/-- EOR ($nn,X): 41, 6 cycles (R172). -/
def execEorIzx (z : Byte) (s : State) : Res State := readOp 6 false (.izx z) eorEffect s

/-- EOR $nn: 45, 3 cycles (R172). -/
def execEorZp0 (z : Byte) (s : State) : Res State := readOp 3 false (.zp0 z) eorEffect s

/-- EOR #$nn: 49, 2 cycles (R172). -/
def execEorImm (b : Byte) (s : State) : Res State := readOp 2 false (.imm b) eorEffect s

/-- EOR $nnnn: 4D, 4 cycles (R172). -/
def execEorAbs (a : Word) (s : State) : Res State := readOp 4 false (.abs a) eorEffect s

/-- EOR ($nn),Y: 51, 5+ cycles (R172). -/
def execEorIzy (z : Byte) (s : State) : Res State := readOp 5 true (.izy z) eorEffect s

/-- EOR $nn,X: 55, 4 cycles (R172). -/
def execEorZpx (z : Byte) (s : State) : Res State := readOp 4 false (.zpx z) eorEffect s

/-- EOR $nnnn,Y: 59, 4+ cycles (R172). -/
def execEorAby (a : Word) (s : State) : Res State := readOp 4 true (.aby a) eorEffect s

/-- EOR $nnnn,X: 5D, 4+ cycles (R172). -/
def execEorAbx (a : Word) (s : State) : Res State := readOp 4 true (.abx a) eorEffect s

/-- BIT: `Z` from `A & m`, `N` and `V` from the byte; `A` unchanged (R173). -/
def bitEffect (m : Byte) (c : Cpu) : Cpu := { c with p := setBitTest c.p c.a m }

/-- BIT $nn: 24, 3 cycles (R173). -/
def execBitZp0 (z : Byte) (s : State) : Res State := readOp 3 false (.zp0 z) bitEffect s

/-- BIT $nnnn: 2C, 4 cycles (R173). -/
def execBitAbs (a : Word) (s : State) : Res State := readOp 4 false (.abs a) bitEffect s

/-- ASL: result and flags, with the carry of before (R174). -/
def aslResult (m p : Byte) : Byte × Byte := ((shiftAsl m (flagC p)).r, setShifted p (shiftAsl m (flagC p)))

/-- ASL $nn: 06, 5 cycles (R174). -/
def execAslZp0 (z : Byte) (s : State) : Res State := modifyOp 5 (.zp0 z) aslResult s

/-- ASL A: 0A, 2 cycles (R174). -/
def execAslAcc (s : State) : Res State := modifyOp 2 .acc aslResult s

/-- ASL $nnnn: 0E, 6 cycles (R174). -/
def execAslAbs (a : Word) (s : State) : Res State := modifyOp 6 (.abs a) aslResult s

/-- ASL $nn,X: 16, 6 cycles (R174). -/
def execAslZpx (z : Byte) (s : State) : Res State := modifyOp 6 (.zpx z) aslResult s

/-- ASL $nnnn,X: 1E, 7 cycles (R174). -/
def execAslAbx (a : Word) (s : State) : Res State := modifyOp 7 (.abx a) aslResult s

/-- LSR: result and flags, with the carry of before (R175). -/
def lsrResult (m p : Byte) : Byte × Byte := ((shiftLsr m (flagC p)).r, setShifted p (shiftLsr m (flagC p)))

/-- LSR $nn: 46, 5 cycles (R175). -/
def execLsrZp0 (z : Byte) (s : State) : Res State := modifyOp 5 (.zp0 z) lsrResult s

/-- LSR A: 4A, 2 cycles (R175). -/
def execLsrAcc (s : State) : Res State := modifyOp 2 .acc lsrResult s

/-- LSR $nnnn: 4E, 6 cycles (R175). -/
def execLsrAbs (a : Word) (s : State) : Res State := modifyOp 6 (.abs a) lsrResult s

/-- LSR $nn,X: 56, 6 cycles (R175). -/
def execLsrZpx (z : Byte) (s : State) : Res State := modifyOp 6 (.zpx z) lsrResult s

/-- LSR $nnnn,X: 5E, 7 cycles (R175). -/
def execLsrAbx (a : Word) (s : State) : Res State := modifyOp 7 (.abx a) lsrResult s

/-- ROL: result and flags, with the carry of before (R176). -/
def rolResult (m p : Byte) : Byte × Byte := ((shiftRol m (flagC p)).r, setShifted p (shiftRol m (flagC p)))

/-- ROL $nn: 26, 5 cycles (R176). -/
def execRolZp0 (z : Byte) (s : State) : Res State := modifyOp 5 (.zp0 z) rolResult s

/-- ROL A: 2A, 2 cycles (R176). -/
def execRolAcc (s : State) : Res State := modifyOp 2 .acc rolResult s

/-- ROL $nnnn: 2E, 6 cycles (R176). -/
def execRolAbs (a : Word) (s : State) : Res State := modifyOp 6 (.abs a) rolResult s

/-- ROL $nn,X: 36, 6 cycles (R176). -/
def execRolZpx (z : Byte) (s : State) : Res State := modifyOp 6 (.zpx z) rolResult s

/-- ROL $nnnn,X: 3E, 7 cycles (R176). -/
def execRolAbx (a : Word) (s : State) : Res State := modifyOp 7 (.abx a) rolResult s

/-- ROR: result and flags, with the carry of before (R177). -/
def rorResult (m p : Byte) : Byte × Byte := ((shiftRor m (flagC p)).r, setShifted p (shiftRor m (flagC p)))

/-- ROR $nn: 66, 5 cycles (R177). -/
def execRorZp0 (z : Byte) (s : State) : Res State := modifyOp 5 (.zp0 z) rorResult s

/-- ROR A: 6A, 2 cycles (R177). -/
def execRorAcc (s : State) : Res State := modifyOp 2 .acc rorResult s

/-- ROR $nnnn: 6E, 6 cycles (R177). -/
def execRorAbs (a : Word) (s : State) : Res State := modifyOp 6 (.abs a) rorResult s

/-- ROR $nn,X: 76, 6 cycles (R177). -/
def execRorZpx (z : Byte) (s : State) : Res State := modifyOp 6 (.zpx z) rorResult s

/-- ROR $nnnn,X: 7E, 7 cycles (R177). -/
def execRorAbx (a : Word) (s : State) : Res State := modifyOp 7 (.abx a) rorResult s

end Sys2Proof.Machine
end

