-- ==== Sys2Proof/Machine/StackFlag.lean ====
section
/-! DEFINITION. Stack, flag and system instructions (44_stack_flag_system.md). -/

namespace Sys2Proof.Machine

/-- PHA: 48, 3 cycles (R210). -/
def execPha (s : State) : Res State := push s.cpu.a (s.setCycles 3)

/-- PHP: 08, 3 cycles: the pushed byte has bits 4 and 5 set; `P` is unchanged (R211). -/
def execPhp (s : State) : Res State := push (pushedByInstruction s.cpu.p) (s.setCycles 3)

/-- PLA: 68, 4 cycles: `A <- Pull(); SetZN(A)` (R212). -/
def execPla (s : State) : Res State :=
  andThen (pull (s.setCycles 4)) fun r => .next (r.2.mapCpu fun c => { c with a := r.1, p := setZN c.p r.1 })

/-- PLP: 28, 4 cycles: the flags from the pulled byte, `U` 1 and `B` 0 (R213). -/
def execPlp (s : State) : Res State :=
  andThen (pull (s.setCycles 4)) fun r => .next (r.2.setP (pulledStatus r.1))

/-- CLC: `C <- 0` (R214). -/
def clcEffect (c : Cpu) : Cpu := { c with p := setC c.p false }

/-- CLC: 18, 2 cycles (R214). -/
def execClc (s : State) : Res State := registerOp 2 clcEffect s

/-- SEC: `C <- 1` (R215). -/
def secEffect (c : Cpu) : Cpu := { c with p := setC c.p true }

/-- SEC: 38, 2 cycles (R215). -/
def execSec (s : State) : Res State := registerOp 2 secEffect s

/-- CLI: `I <- 0` (R216). -/
def cliEffect (c : Cpu) : Cpu := { c with p := setI c.p false }

/-- CLI: 58, 2 cycles (R216). -/
def execCli (s : State) : Res State := registerOp 2 cliEffect s

/-- SEI: `I <- 1` (R217). -/
def seiEffect (c : Cpu) : Cpu := { c with p := setI c.p true }

/-- SEI: 78, 2 cycles (R217). -/
def execSei (s : State) : Res State := registerOp 2 seiEffect s

/-- CLD: `D <- 0` (R218). -/
def cldEffect (c : Cpu) : Cpu := { c with p := setD c.p false }

/-- CLD: D8, 2 cycles (R218). -/
def execCld (s : State) : Res State := registerOp 2 cldEffect s

/-- SED: `D <- 1` (R219). -/
def sedEffect (c : Cpu) : Cpu := { c with p := setD c.p true }

/-- SED: F8, 2 cycles (R219). -/
def execSed (s : State) : Res State := registerOp 2 sedEffect s

/-- CLV: `V <- 0` (R220). -/
def clvEffect (c : Cpu) : Cpu := { c with p := setV c.p false }

/-- CLV: B8, 2 cycles (R220). -/
def execClv (s : State) : Res State := registerOp 2 clvEffect s

/-- NOP: EA, 2 cycles: nothing but `cycles` (R221). -/
def execNop (s : State) : Res State := registerOp 2 (fun c => c) s

/-- BRK: 00, 7 cycles (R222, R385): PC goes past the padding byte, which is not read; the pushed status has `B` and `U`
set and `I` as before; not masked by `I`; the live `B` is 0 again after the push (R25; log 15). -/
def execBrk (s : State) : Res State :=
  let s := (s.setCycles 7).setPc (s.cpu.pc + 1)
  andThen (takeException (pushedByInstruction s.cpu.p) vectorIrq s) fun s => .next (s.setP (setB s.cpu.p false))

/-- RTI: 40, 6 cycles (R223). -/
def execRti (s : State) : Res State := returnFromException (s.setCycles 6)

end Sys2Proof.Machine
end

