-- ==== Sys2Proof/Machine/Dispatch.lean ====
section
/-! DEFINITION. The meaning of each instruction: one arm per constructor of `Instr`. -/

namespace Sys2Proof.Machine

def exec (i : Instr) (s : State) : Host.Outcome State Fault Refusal :=
  match i with
  -- 40 loads, stores, transfers
  | .ldaIzx z => Sys2Proof.Machine.execLdaIzx z s
  | .ldaZp0 z => Sys2Proof.Machine.execLdaZp0 z s
  | .ldaImm b => Sys2Proof.Machine.execLdaImm b s
  | .ldaAbs a => Sys2Proof.Machine.execLdaAbs a s
  | .ldaIzy z => Sys2Proof.Machine.execLdaIzy z s
  | .ldaZpx z => Sys2Proof.Machine.execLdaZpx z s
  | .ldaAby a => Sys2Proof.Machine.execLdaAby a s
  | .ldaAbx a => Sys2Proof.Machine.execLdaAbx a s
  | .ldxImm b => Sys2Proof.Machine.execLdxImm b s
  | .ldxZp0 z => Sys2Proof.Machine.execLdxZp0 z s
  | .ldxAbs a => Sys2Proof.Machine.execLdxAbs a s
  | .ldxZpy z => Sys2Proof.Machine.execLdxZpy z s
  | .ldxAby a => Sys2Proof.Machine.execLdxAby a s
  | .ldyImm b => Sys2Proof.Machine.execLdyImm b s
  | .ldyZp0 z => Sys2Proof.Machine.execLdyZp0 z s
  | .ldyAbs a => Sys2Proof.Machine.execLdyAbs a s
  | .ldyZpx z => Sys2Proof.Machine.execLdyZpx z s
  | .ldyAbx a => Sys2Proof.Machine.execLdyAbx a s
  | .staIzx z => Sys2Proof.Machine.execStaIzx z s
  | .staZp0 z => Sys2Proof.Machine.execStaZp0 z s
  | .staAbs a => Sys2Proof.Machine.execStaAbs a s
  | .staIzy z => Sys2Proof.Machine.execStaIzy z s
  | .staZpx z => Sys2Proof.Machine.execStaZpx z s
  | .staAby a => Sys2Proof.Machine.execStaAby a s
  | .staAbx a => Sys2Proof.Machine.execStaAbx a s
  | .stxZp0 z => Sys2Proof.Machine.execStxZp0 z s
  | .stxAbs a => Sys2Proof.Machine.execStxAbs a s
  | .stxZpy z => Sys2Proof.Machine.execStxZpy z s
  | .styZp0 z => Sys2Proof.Machine.execStyZp0 z s
  | .styAbs a => Sys2Proof.Machine.execStyAbs a s
  | .styZpx z => Sys2Proof.Machine.execStyZpx z s
  | .tax => Sys2Proof.Machine.execTax s
  | .tay => Sys2Proof.Machine.execTay s
  | .txa => Sys2Proof.Machine.execTxa s
  | .tya => Sys2Proof.Machine.execTya s
  | .tsx => Sys2Proof.Machine.execTsx s
  | .txs => Sys2Proof.Machine.execTxs s
  -- 41 arithmetic
  | .adcIzx z => Sys2Proof.Machine.execAdcIzx z s
  | .adcZp0 z => Sys2Proof.Machine.execAdcZp0 z s
  | .adcImm b => Sys2Proof.Machine.execAdcImm b s
  | .adcAbs a => Sys2Proof.Machine.execAdcAbs a s
  | .adcIzy z => Sys2Proof.Machine.execAdcIzy z s
  | .adcZpx z => Sys2Proof.Machine.execAdcZpx z s
  | .adcAby a => Sys2Proof.Machine.execAdcAby a s
  | .adcAbx a => Sys2Proof.Machine.execAdcAbx a s
  | .sbcIzx z => Sys2Proof.Machine.execSbcIzx z s
  | .sbcZp0 z => Sys2Proof.Machine.execSbcZp0 z s
  | .sbcImm b => Sys2Proof.Machine.execSbcImm b s
  | .sbcAbs a => Sys2Proof.Machine.execSbcAbs a s
  | .sbcIzy z => Sys2Proof.Machine.execSbcIzy z s
  | .sbcZpx z => Sys2Proof.Machine.execSbcZpx z s
  | .sbcAby a => Sys2Proof.Machine.execSbcAby a s
  | .sbcAbx a => Sys2Proof.Machine.execSbcAbx a s
  | .cmpIzx z => Sys2Proof.Machine.execCmpIzx z s
  | .cmpZp0 z => Sys2Proof.Machine.execCmpZp0 z s
  | .cmpImm b => Sys2Proof.Machine.execCmpImm b s
  | .cmpAbs a => Sys2Proof.Machine.execCmpAbs a s
  | .cmpIzy z => Sys2Proof.Machine.execCmpIzy z s
  | .cmpZpx z => Sys2Proof.Machine.execCmpZpx z s
  | .cmpAby a => Sys2Proof.Machine.execCmpAby a s
  | .cmpAbx a => Sys2Proof.Machine.execCmpAbx a s
  | .cpxImm b => Sys2Proof.Machine.execCpxImm b s
  | .cpxZp0 z => Sys2Proof.Machine.execCpxZp0 z s
  | .cpxAbs a => Sys2Proof.Machine.execCpxAbs a s
  | .cpyImm b => Sys2Proof.Machine.execCpyImm b s
  | .cpyZp0 z => Sys2Proof.Machine.execCpyZp0 z s
  | .cpyAbs a => Sys2Proof.Machine.execCpyAbs a s
  | .incZp0 z => Sys2Proof.Machine.execIncZp0 z s
  | .incAbs a => Sys2Proof.Machine.execIncAbs a s
  | .incZpx z => Sys2Proof.Machine.execIncZpx z s
  | .incAbx a => Sys2Proof.Machine.execIncAbx a s
  | .inx => Sys2Proof.Machine.execInx s
  | .iny => Sys2Proof.Machine.execIny s
  | .decZp0 z => Sys2Proof.Machine.execDecZp0 z s
  | .decAbs a => Sys2Proof.Machine.execDecAbs a s
  | .decZpx z => Sys2Proof.Machine.execDecZpx z s
  | .decAbx a => Sys2Proof.Machine.execDecAbx a s
  | .dex => Sys2Proof.Machine.execDex s
  | .dey => Sys2Proof.Machine.execDey s
  -- 42 logic, shifts
  | .andIzx z => Sys2Proof.Machine.execAndIzx z s
  | .andZp0 z => Sys2Proof.Machine.execAndZp0 z s
  | .andImm b => Sys2Proof.Machine.execAndImm b s
  | .andAbs a => Sys2Proof.Machine.execAndAbs a s
  | .andIzy z => Sys2Proof.Machine.execAndIzy z s
  | .andZpx z => Sys2Proof.Machine.execAndZpx z s
  | .andAby a => Sys2Proof.Machine.execAndAby a s
  | .andAbx a => Sys2Proof.Machine.execAndAbx a s
  | .oraIzx z => Sys2Proof.Machine.execOraIzx z s
  | .oraZp0 z => Sys2Proof.Machine.execOraZp0 z s
  | .oraImm b => Sys2Proof.Machine.execOraImm b s
  | .oraAbs a => Sys2Proof.Machine.execOraAbs a s
  | .oraIzy z => Sys2Proof.Machine.execOraIzy z s
  | .oraZpx z => Sys2Proof.Machine.execOraZpx z s
  | .oraAby a => Sys2Proof.Machine.execOraAby a s
  | .oraAbx a => Sys2Proof.Machine.execOraAbx a s
  | .eorIzx z => Sys2Proof.Machine.execEorIzx z s
  | .eorZp0 z => Sys2Proof.Machine.execEorZp0 z s
  | .eorImm b => Sys2Proof.Machine.execEorImm b s
  | .eorAbs a => Sys2Proof.Machine.execEorAbs a s
  | .eorIzy z => Sys2Proof.Machine.execEorIzy z s
  | .eorZpx z => Sys2Proof.Machine.execEorZpx z s
  | .eorAby a => Sys2Proof.Machine.execEorAby a s
  | .eorAbx a => Sys2Proof.Machine.execEorAbx a s
  | .bitZp0 z => Sys2Proof.Machine.execBitZp0 z s
  | .bitAbs a => Sys2Proof.Machine.execBitAbs a s
  | .aslZp0 z => Sys2Proof.Machine.execAslZp0 z s
  | .aslAcc => Sys2Proof.Machine.execAslAcc s
  | .aslAbs a => Sys2Proof.Machine.execAslAbs a s
  | .aslZpx z => Sys2Proof.Machine.execAslZpx z s
  | .aslAbx a => Sys2Proof.Machine.execAslAbx a s
  | .lsrZp0 z => Sys2Proof.Machine.execLsrZp0 z s
  | .lsrAcc => Sys2Proof.Machine.execLsrAcc s
  | .lsrAbs a => Sys2Proof.Machine.execLsrAbs a s
  | .lsrZpx z => Sys2Proof.Machine.execLsrZpx z s
  | .lsrAbx a => Sys2Proof.Machine.execLsrAbx a s
  | .rolZp0 z => Sys2Proof.Machine.execRolZp0 z s
  | .rolAcc => Sys2Proof.Machine.execRolAcc s
  | .rolAbs a => Sys2Proof.Machine.execRolAbs a s
  | .rolZpx z => Sys2Proof.Machine.execRolZpx z s
  | .rolAbx a => Sys2Proof.Machine.execRolAbx a s
  | .rorZp0 z => Sys2Proof.Machine.execRorZp0 z s
  | .rorAcc => Sys2Proof.Machine.execRorAcc s
  | .rorAbs a => Sys2Proof.Machine.execRorAbs a s
  | .rorZpx z => Sys2Proof.Machine.execRorZpx z s
  | .rorAbx a => Sys2Proof.Machine.execRorAbx a s
  -- 43 control flow
  | .jmpAbs a => Sys2Proof.Machine.execJmpAbs a s
  | .jmpInd a => Sys2Proof.Machine.execJmpInd a s
  | .jsr a => Sys2Proof.Machine.execJsr a s
  | .rts => Sys2Proof.Machine.execRts s
  | .bcc off => Sys2Proof.Machine.execBcc off s
  | .bcs off => Sys2Proof.Machine.execBcs off s
  | .beq off => Sys2Proof.Machine.execBeq off s
  | .bne off => Sys2Proof.Machine.execBne off s
  | .bmi off => Sys2Proof.Machine.execBmi off s
  | .bpl off => Sys2Proof.Machine.execBpl off s
  | .bvc off => Sys2Proof.Machine.execBvc off s
  | .bvs off => Sys2Proof.Machine.execBvs off s
  -- 44 stack, flags, system
  | .pha => Sys2Proof.Machine.execPha s
  | .php => Sys2Proof.Machine.execPhp s
  | .pla => Sys2Proof.Machine.execPla s
  | .plp => Sys2Proof.Machine.execPlp s
  | .clc => Sys2Proof.Machine.execClc s
  | .sec => Sys2Proof.Machine.execSec s
  | .cli => Sys2Proof.Machine.execCli s
  | .sei => Sys2Proof.Machine.execSei s
  | .cld => Sys2Proof.Machine.execCld s
  | .sed => Sys2Proof.Machine.execSed s
  | .clv => Sys2Proof.Machine.execClv s
  | .nop => Sys2Proof.Machine.execNop s
  | .brk => Sys2Proof.Machine.execBrk s
  | .rti => Sys2Proof.Machine.execRti s

end Sys2Proof.Machine
end

