-- ==== Sys2Proof/Decode.lean ====
section
/-! DEFINITION. The instruction encoding (30_encoding.md): the opcode map as the spec's 16 x 16 grid, the decoder
read from it, the table of R113 by mnemonic and mode, and the encoder read from that. The two tables are written
out apart; `decode (encode i) = i` compares them. -/

namespace Sys2Proof

/-- What an opcode byte selects: the constructor, by how many operand bytes it takes (R90). -/
inductive Entry where
  /-- F1: the opcode byte alone. -/
  | f1 (i : Instr)
  /-- F2: one operand byte. -/
  | f2 (mk : Byte → Instr)
  /-- F3: two operand bytes, the low byte first. -/
  | f3 (mk : Word → Instr)

/-- The number of operand bytes of an entry (R90). -/
def Entry.operandBytes : Entry → Nat
  | .f1 _ => 0
  | .f2 _ => 1
  | .f3 _ => 2

/-- Why a byte sequence is no instruction. -/
inductive DecodeError where
  /-- No byte at all. -/
  | empty
  /-- One of the 105 bytes the table does not assign (R93). -/
  | reserved (opcode : Byte)
  /-- The opcode is assigned and its operand bytes are missing. -/
  | truncated (opcode : Byte)
deriving DecidableEq, Repr

/-- Row 0x of the grid of R113; `none` is a reserved byte (R93). -/
def gridRow0 : List (Option Entry) := [
  some (.f1 .brk), some (.f2 .oraIzx), none, none,
  none, some (.f2 .oraZp0), some (.f2 .aslZp0), none,
  some (.f1 .php), some (.f2 .oraImm), some (.f1 .aslAcc), none,
  none, some (.f3 .oraAbs), some (.f3 .aslAbs), none]

/-- Row 1x of the grid of R113; `none` is a reserved byte (R93). -/
def gridRow1 : List (Option Entry) := [
  some (.f2 .bpl), some (.f2 .oraIzy), none, none,
  none, some (.f2 .oraZpx), some (.f2 .aslZpx), none,
  some (.f1 .clc), some (.f3 .oraAby), none, none,
  none, some (.f3 .oraAbx), some (.f3 .aslAbx), none]

/-- Row 2x of the grid of R113; `none` is a reserved byte (R93). -/
def gridRow2 : List (Option Entry) := [
  some (.f3 .jsr), some (.f2 .andIzx), none, none,
  some (.f2 .bitZp0), some (.f2 .andZp0), some (.f2 .rolZp0), none,
  some (.f1 .plp), some (.f2 .andImm), some (.f1 .rolAcc), none,
  some (.f3 .bitAbs), some (.f3 .andAbs), some (.f3 .rolAbs), none]

/-- Row 3x of the grid of R113; `none` is a reserved byte (R93). -/
def gridRow3 : List (Option Entry) := [
  some (.f2 .bmi), some (.f2 .andIzy), none, none,
  none, some (.f2 .andZpx), some (.f2 .rolZpx), none,
  some (.f1 .sec), some (.f3 .andAby), none, none,
  none, some (.f3 .andAbx), some (.f3 .rolAbx), none]

/-- Row 4x of the grid of R113; `none` is a reserved byte (R93). -/
def gridRow4 : List (Option Entry) := [
  some (.f1 .rti), some (.f2 .eorIzx), none, none,
  none, some (.f2 .eorZp0), some (.f2 .lsrZp0), none,
  some (.f1 .pha), some (.f2 .eorImm), some (.f1 .lsrAcc), none,
  some (.f3 .jmpAbs), some (.f3 .eorAbs), some (.f3 .lsrAbs), none]

/-- Row 5x of the grid of R113; `none` is a reserved byte (R93). -/
def gridRow5 : List (Option Entry) := [
  some (.f2 .bvc), some (.f2 .eorIzy), none, none,
  none, some (.f2 .eorZpx), some (.f2 .lsrZpx), none,
  some (.f1 .cli), some (.f3 .eorAby), none, none,
  none, some (.f3 .eorAbx), some (.f3 .lsrAbx), none]

/-- Row 6x of the grid of R113; `none` is a reserved byte (R93). -/
def gridRow6 : List (Option Entry) := [
  some (.f1 .rts), some (.f2 .adcIzx), none, none,
  none, some (.f2 .adcZp0), some (.f2 .rorZp0), none,
  some (.f1 .pla), some (.f2 .adcImm), some (.f1 .rorAcc), none,
  some (.f3 .jmpInd), some (.f3 .adcAbs), some (.f3 .rorAbs), none]

/-- Row 7x of the grid of R113; `none` is a reserved byte (R93). -/
def gridRow7 : List (Option Entry) := [
  some (.f2 .bvs), some (.f2 .adcIzy), none, none,
  none, some (.f2 .adcZpx), some (.f2 .rorZpx), none,
  some (.f1 .sei), some (.f3 .adcAby), none, none,
  none, some (.f3 .adcAbx), some (.f3 .rorAbx), none]

/-- Row 8x of the grid of R113; `none` is a reserved byte (R93). -/
def gridRow8 : List (Option Entry) := [
  none, some (.f2 .staIzx), none, none,
  some (.f2 .styZp0), some (.f2 .staZp0), some (.f2 .stxZp0), none,
  some (.f1 .dey), none, some (.f1 .txa), none,
  some (.f3 .styAbs), some (.f3 .staAbs), some (.f3 .stxAbs), none]

/-- Row 9x of the grid of R113; `none` is a reserved byte (R93). -/
def gridRow9 : List (Option Entry) := [
  some (.f2 .bcc), some (.f2 .staIzy), none, none,
  some (.f2 .styZpx), some (.f2 .staZpx), some (.f2 .stxZpy), none,
  some (.f1 .tya), some (.f3 .staAby), some (.f1 .txs), none,
  none, some (.f3 .staAbx), none, none]

/-- Row Ax of the grid of R113; `none` is a reserved byte (R93). -/
def gridRowA : List (Option Entry) := [
  some (.f2 .ldyImm), some (.f2 .ldaIzx), some (.f2 .ldxImm), none,
  some (.f2 .ldyZp0), some (.f2 .ldaZp0), some (.f2 .ldxZp0), none,
  some (.f1 .tay), some (.f2 .ldaImm), some (.f1 .tax), none,
  some (.f3 .ldyAbs), some (.f3 .ldaAbs), some (.f3 .ldxAbs), none]

/-- Row Bx of the grid of R113; `none` is a reserved byte (R93). -/
def gridRowB : List (Option Entry) := [
  some (.f2 .bcs), some (.f2 .ldaIzy), none, none,
  some (.f2 .ldyZpx), some (.f2 .ldaZpx), some (.f2 .ldxZpy), none,
  some (.f1 .clv), some (.f3 .ldaAby), some (.f1 .tsx), none,
  some (.f3 .ldyAbx), some (.f3 .ldaAbx), some (.f3 .ldxAby), none]

/-- Row Cx of the grid of R113; `none` is a reserved byte (R93). -/
def gridRowC : List (Option Entry) := [
  some (.f2 .cpyImm), some (.f2 .cmpIzx), none, none,
  some (.f2 .cpyZp0), some (.f2 .cmpZp0), some (.f2 .decZp0), none,
  some (.f1 .iny), some (.f2 .cmpImm), some (.f1 .dex), none,
  some (.f3 .cpyAbs), some (.f3 .cmpAbs), some (.f3 .decAbs), none]

/-- Row Dx of the grid of R113; `none` is a reserved byte (R93). -/
def gridRowD : List (Option Entry) := [
  some (.f2 .bne), some (.f2 .cmpIzy), none, none,
  none, some (.f2 .cmpZpx), some (.f2 .decZpx), none,
  some (.f1 .cld), some (.f3 .cmpAby), none, none,
  none, some (.f3 .cmpAbx), some (.f3 .decAbx), none]

/-- Row Ex of the grid of R113; `none` is a reserved byte (R93). -/
def gridRowE : List (Option Entry) := [
  some (.f2 .cpxImm), some (.f2 .sbcIzx), none, none,
  some (.f2 .cpxZp0), some (.f2 .sbcZp0), some (.f2 .incZp0), none,
  some (.f1 .inx), some (.f2 .sbcImm), some (.f1 .nop), none,
  some (.f3 .cpxAbs), some (.f3 .sbcAbs), some (.f3 .incAbs), none]

/-- Row Fx of the grid of R113; `none` is a reserved byte (R93). -/
def gridRowF : List (Option Entry) := [
  some (.f2 .beq), some (.f2 .sbcIzy), none, none,
  none, some (.f2 .sbcZpx), some (.f2 .incZpx), none,
  some (.f1 .sed), some (.f3 .sbcAby), none, none,
  none, some (.f3 .sbcAbx), some (.f3 .incAbx), none]

/-- The grid of R113, rows by the high nibble of the opcode. -/
def grid : List (List (Option Entry)) :=
  [gridRow0, gridRow1, gridRow2, gridRow3, gridRow4, gridRow5, gridRow6, gridRow7] ++
  [gridRow8, gridRow9, gridRowA, gridRowB, gridRowC, gridRowD, gridRowE, gridRowF]

/-- The table entry of an opcode byte: "The opcode byte alone selects the mnemonic, the addressing mode and the base
cycle count" (R90). -/
def lookup (opcode : Byte) : Option Entry :=
  (grid.getD (opcode.toNat / 16) []).getD (opcode.toNat % 16) none

/-- Decode one instruction from the front of a byte list, in address order, and give the bytes after it. Total: a
reserved opcode, a missing operand and the empty list are rejected by name. -/
def decode : List Byte → Except DecodeError (Instr × List Byte)
  | [] => .error .empty
  | op :: rest =>
    match lookup op with
    | none => .error (.reserved op)
    | some (.f1 i) => .ok (i, rest)
    | some (.f2 mk) =>
      match rest with
      | b :: rest => .ok (mk b, rest)
      | [] => .error (.truncated op)
    | some (.f3 mk) =>
      match rest with
      | lo :: hi :: rest => .ok (mk (mkWord hi lo), rest)
      | _ => .error (.truncated op)

/-- A row of the instruction table: opcode byte, mnemonic, mode with its operand, base cycles, extra cycles (R113). -/
structure Row where
  opcode : Byte
  mnemonic : Mnemonic
  operand : Operand
  base : Nat
  extra : Extra
deriving DecidableEq, Repr

/-- The row of R113 that an instruction is, from the table by mnemonic and mode. -/
def Instr.row : Instr → Row
  -- 40 loads, stores, transfers
  | .ldaIzx z => ⟨0xA1, .LDA, (.izx z), 6, .none⟩
  | .ldaZp0 z => ⟨0xA5, .LDA, (.zp0 z), 3, .none⟩
  | .ldaImm b => ⟨0xA9, .LDA, (.imm b), 2, .none⟩
  | .ldaAbs a => ⟨0xAD, .LDA, (.abs a), 4, .none⟩
  | .ldaIzy z => ⟨0xB1, .LDA, (.izy z), 5, .pageCross⟩
  | .ldaZpx z => ⟨0xB5, .LDA, (.zpx z), 4, .none⟩
  | .ldaAby a => ⟨0xB9, .LDA, (.aby a), 4, .pageCross⟩
  | .ldaAbx a => ⟨0xBD, .LDA, (.abx a), 4, .pageCross⟩
  | .ldxImm b => ⟨0xA2, .LDX, (.imm b), 2, .none⟩
  | .ldxZp0 z => ⟨0xA6, .LDX, (.zp0 z), 3, .none⟩
  | .ldxAbs a => ⟨0xAE, .LDX, (.abs a), 4, .none⟩
  | .ldxZpy z => ⟨0xB6, .LDX, (.zpy z), 4, .none⟩
  | .ldxAby a => ⟨0xBE, .LDX, (.aby a), 4, .pageCross⟩
  | .ldyImm b => ⟨0xA0, .LDY, (.imm b), 2, .none⟩
  | .ldyZp0 z => ⟨0xA4, .LDY, (.zp0 z), 3, .none⟩
  | .ldyAbs a => ⟨0xAC, .LDY, (.abs a), 4, .none⟩
  | .ldyZpx z => ⟨0xB4, .LDY, (.zpx z), 4, .none⟩
  | .ldyAbx a => ⟨0xBC, .LDY, (.abx a), 4, .pageCross⟩
  | .staIzx z => ⟨0x81, .STA, (.izx z), 6, .none⟩
  | .staZp0 z => ⟨0x85, .STA, (.zp0 z), 3, .none⟩
  | .staAbs a => ⟨0x8D, .STA, (.abs a), 4, .none⟩
  | .staIzy z => ⟨0x91, .STA, (.izy z), 6, .none⟩
  | .staZpx z => ⟨0x95, .STA, (.zpx z), 4, .none⟩
  | .staAby a => ⟨0x99, .STA, (.aby a), 5, .none⟩
  | .staAbx a => ⟨0x9D, .STA, (.abx a), 5, .none⟩
  | .stxZp0 z => ⟨0x86, .STX, (.zp0 z), 3, .none⟩
  | .stxAbs a => ⟨0x8E, .STX, (.abs a), 4, .none⟩
  | .stxZpy z => ⟨0x96, .STX, (.zpy z), 4, .none⟩
  | .styZp0 z => ⟨0x84, .STY, (.zp0 z), 3, .none⟩
  | .styAbs a => ⟨0x8C, .STY, (.abs a), 4, .none⟩
  | .styZpx z => ⟨0x94, .STY, (.zpx z), 4, .none⟩
  | .tax => ⟨0xAA, .TAX, .imp, 2, .none⟩
  | .tay => ⟨0xA8, .TAY, .imp, 2, .none⟩
  | .txa => ⟨0x8A, .TXA, .imp, 2, .none⟩
  | .tya => ⟨0x98, .TYA, .imp, 2, .none⟩
  | .tsx => ⟨0xBA, .TSX, .imp, 2, .none⟩
  | .txs => ⟨0x9A, .TXS, .imp, 2, .none⟩
  -- 41 arithmetic
  | .adcIzx z => ⟨0x61, .ADC, (.izx z), 6, .none⟩
  | .adcZp0 z => ⟨0x65, .ADC, (.zp0 z), 3, .none⟩
  | .adcImm b => ⟨0x69, .ADC, (.imm b), 2, .none⟩
  | .adcAbs a => ⟨0x6D, .ADC, (.abs a), 4, .none⟩
  | .adcIzy z => ⟨0x71, .ADC, (.izy z), 5, .pageCross⟩
  | .adcZpx z => ⟨0x75, .ADC, (.zpx z), 4, .none⟩
  | .adcAby a => ⟨0x79, .ADC, (.aby a), 4, .pageCross⟩
  | .adcAbx a => ⟨0x7D, .ADC, (.abx a), 4, .pageCross⟩
  | .sbcIzx z => ⟨0xE1, .SBC, (.izx z), 6, .none⟩
  | .sbcZp0 z => ⟨0xE5, .SBC, (.zp0 z), 3, .none⟩
  | .sbcImm b => ⟨0xE9, .SBC, (.imm b), 2, .none⟩
  | .sbcAbs a => ⟨0xED, .SBC, (.abs a), 4, .none⟩
  | .sbcIzy z => ⟨0xF1, .SBC, (.izy z), 5, .pageCross⟩
  | .sbcZpx z => ⟨0xF5, .SBC, (.zpx z), 4, .none⟩
  | .sbcAby a => ⟨0xF9, .SBC, (.aby a), 4, .pageCross⟩
  | .sbcAbx a => ⟨0xFD, .SBC, (.abx a), 4, .pageCross⟩
  | .cmpIzx z => ⟨0xC1, .CMP, (.izx z), 6, .none⟩
  | .cmpZp0 z => ⟨0xC5, .CMP, (.zp0 z), 3, .none⟩
  | .cmpImm b => ⟨0xC9, .CMP, (.imm b), 2, .none⟩
  | .cmpAbs a => ⟨0xCD, .CMP, (.abs a), 4, .none⟩
  | .cmpIzy z => ⟨0xD1, .CMP, (.izy z), 5, .pageCross⟩
  | .cmpZpx z => ⟨0xD5, .CMP, (.zpx z), 4, .none⟩
  | .cmpAby a => ⟨0xD9, .CMP, (.aby a), 4, .pageCross⟩
  | .cmpAbx a => ⟨0xDD, .CMP, (.abx a), 4, .pageCross⟩
  | .cpxImm b => ⟨0xE0, .CPX, (.imm b), 2, .none⟩
  | .cpxZp0 z => ⟨0xE4, .CPX, (.zp0 z), 3, .none⟩
  | .cpxAbs a => ⟨0xEC, .CPX, (.abs a), 4, .none⟩
  | .cpyImm b => ⟨0xC0, .CPY, (.imm b), 2, .none⟩
  | .cpyZp0 z => ⟨0xC4, .CPY, (.zp0 z), 3, .none⟩
  | .cpyAbs a => ⟨0xCC, .CPY, (.abs a), 4, .none⟩
  | .incZp0 z => ⟨0xE6, .INC, (.zp0 z), 5, .none⟩
  | .incAbs a => ⟨0xEE, .INC, (.abs a), 6, .none⟩
  | .incZpx z => ⟨0xF6, .INC, (.zpx z), 6, .none⟩
  | .incAbx a => ⟨0xFE, .INC, (.abx a), 7, .none⟩
  | .inx => ⟨0xE8, .INX, .imp, 2, .none⟩
  | .iny => ⟨0xC8, .INY, .imp, 2, .none⟩
  | .decZp0 z => ⟨0xC6, .DEC, (.zp0 z), 5, .none⟩
  | .decAbs a => ⟨0xCE, .DEC, (.abs a), 6, .none⟩
  | .decZpx z => ⟨0xD6, .DEC, (.zpx z), 6, .none⟩
  | .decAbx a => ⟨0xDE, .DEC, (.abx a), 7, .none⟩
  | .dex => ⟨0xCA, .DEX, .imp, 2, .none⟩
  | .dey => ⟨0x88, .DEY, .imp, 2, .none⟩
  -- 42 logic, shifts
  | .andIzx z => ⟨0x21, .AND, (.izx z), 6, .none⟩
  | .andZp0 z => ⟨0x25, .AND, (.zp0 z), 3, .none⟩
  | .andImm b => ⟨0x29, .AND, (.imm b), 2, .none⟩
  | .andAbs a => ⟨0x2D, .AND, (.abs a), 4, .none⟩
  | .andIzy z => ⟨0x31, .AND, (.izy z), 5, .pageCross⟩
  | .andZpx z => ⟨0x35, .AND, (.zpx z), 4, .none⟩
  | .andAby a => ⟨0x39, .AND, (.aby a), 4, .pageCross⟩
  | .andAbx a => ⟨0x3D, .AND, (.abx a), 4, .pageCross⟩
  | .oraIzx z => ⟨0x01, .ORA, (.izx z), 6, .none⟩
  | .oraZp0 z => ⟨0x05, .ORA, (.zp0 z), 3, .none⟩
  | .oraImm b => ⟨0x09, .ORA, (.imm b), 2, .none⟩
  | .oraAbs a => ⟨0x0D, .ORA, (.abs a), 4, .none⟩
  | .oraIzy z => ⟨0x11, .ORA, (.izy z), 5, .pageCross⟩
  | .oraZpx z => ⟨0x15, .ORA, (.zpx z), 4, .none⟩
  | .oraAby a => ⟨0x19, .ORA, (.aby a), 4, .pageCross⟩
  | .oraAbx a => ⟨0x1D, .ORA, (.abx a), 4, .pageCross⟩
  | .eorIzx z => ⟨0x41, .EOR, (.izx z), 6, .none⟩
  | .eorZp0 z => ⟨0x45, .EOR, (.zp0 z), 3, .none⟩
  | .eorImm b => ⟨0x49, .EOR, (.imm b), 2, .none⟩
  | .eorAbs a => ⟨0x4D, .EOR, (.abs a), 4, .none⟩
  | .eorIzy z => ⟨0x51, .EOR, (.izy z), 5, .pageCross⟩
  | .eorZpx z => ⟨0x55, .EOR, (.zpx z), 4, .none⟩
  | .eorAby a => ⟨0x59, .EOR, (.aby a), 4, .pageCross⟩
  | .eorAbx a => ⟨0x5D, .EOR, (.abx a), 4, .pageCross⟩
  | .bitZp0 z => ⟨0x24, .BIT, (.zp0 z), 3, .none⟩
  | .bitAbs a => ⟨0x2C, .BIT, (.abs a), 4, .none⟩
  | .aslZp0 z => ⟨0x06, .ASL, (.zp0 z), 5, .none⟩
  | .aslAcc => ⟨0x0A, .ASL, .acc, 2, .none⟩
  | .aslAbs a => ⟨0x0E, .ASL, (.abs a), 6, .none⟩
  | .aslZpx z => ⟨0x16, .ASL, (.zpx z), 6, .none⟩
  | .aslAbx a => ⟨0x1E, .ASL, (.abx a), 7, .none⟩
  | .lsrZp0 z => ⟨0x46, .LSR, (.zp0 z), 5, .none⟩
  | .lsrAcc => ⟨0x4A, .LSR, .acc, 2, .none⟩
  | .lsrAbs a => ⟨0x4E, .LSR, (.abs a), 6, .none⟩
  | .lsrZpx z => ⟨0x56, .LSR, (.zpx z), 6, .none⟩
  | .lsrAbx a => ⟨0x5E, .LSR, (.abx a), 7, .none⟩
  | .rolZp0 z => ⟨0x26, .ROL, (.zp0 z), 5, .none⟩
  | .rolAcc => ⟨0x2A, .ROL, .acc, 2, .none⟩
  | .rolAbs a => ⟨0x2E, .ROL, (.abs a), 6, .none⟩
  | .rolZpx z => ⟨0x36, .ROL, (.zpx z), 6, .none⟩
  | .rolAbx a => ⟨0x3E, .ROL, (.abx a), 7, .none⟩
  | .rorZp0 z => ⟨0x66, .ROR, (.zp0 z), 5, .none⟩
  | .rorAcc => ⟨0x6A, .ROR, .acc, 2, .none⟩
  | .rorAbs a => ⟨0x6E, .ROR, (.abs a), 6, .none⟩
  | .rorZpx z => ⟨0x76, .ROR, (.zpx z), 6, .none⟩
  | .rorAbx a => ⟨0x7E, .ROR, (.abx a), 7, .none⟩
  -- 43 control flow
  | .jmpAbs a => ⟨0x4C, .JMP, (.abs a), 3, .none⟩
  | .jmpInd a => ⟨0x6C, .JMP, (.ind a), 5, .none⟩
  | .jsr a => ⟨0x20, .JSR, (.abs a), 6, .none⟩
  | .rts => ⟨0x60, .RTS, .imp, 6, .none⟩
  | .bcc off => ⟨0x90, .BCC, (.rel off), 2, .branch⟩
  | .bcs off => ⟨0xB0, .BCS, (.rel off), 2, .branch⟩
  | .beq off => ⟨0xF0, .BEQ, (.rel off), 2, .branch⟩
  | .bne off => ⟨0xD0, .BNE, (.rel off), 2, .branch⟩
  | .bmi off => ⟨0x30, .BMI, (.rel off), 2, .branch⟩
  | .bpl off => ⟨0x10, .BPL, (.rel off), 2, .branch⟩
  | .bvc off => ⟨0x50, .BVC, (.rel off), 2, .branch⟩
  | .bvs off => ⟨0x70, .BVS, (.rel off), 2, .branch⟩
  -- 44 stack, flags, system
  | .pha => ⟨0x48, .PHA, .imp, 3, .none⟩
  | .php => ⟨0x08, .PHP, .imp, 3, .none⟩
  | .pla => ⟨0x68, .PLA, .imp, 4, .none⟩
  | .plp => ⟨0x28, .PLP, .imp, 4, .none⟩
  | .clc => ⟨0x18, .CLC, .imp, 2, .none⟩
  | .sec => ⟨0x38, .SEC, .imp, 2, .none⟩
  | .cli => ⟨0x58, .CLI, .imp, 2, .none⟩
  | .sei => ⟨0x78, .SEI, .imp, 2, .none⟩
  | .cld => ⟨0xD8, .CLD, .imp, 2, .none⟩
  | .sed => ⟨0xF8, .SED, .imp, 2, .none⟩
  | .clv => ⟨0xB8, .CLV, .imp, 2, .none⟩
  | .nop => ⟨0xEA, .NOP, .imp, 2, .none⟩
  | .brk => ⟨0x00, .BRK, .imp, 7, .none⟩
  | .rti => ⟨0x40, .RTI, .imp, 6, .none⟩

/-- The mnemonic of an instruction (R113). -/
def Instr.mnemonic (i : Instr) : Mnemonic := i.row.mnemonic

/-- The addressing mode of an instruction, with its operand (R91). -/
def Instr.operand (i : Instr) : Operand := i.row.operand

/-- The length of an instruction in bytes (R91). -/
def Instr.length (i : Instr) : Nat := i.operand.mode.length

/-- The operand bytes of an addressing mode, in address order (R90). -/
def Operand.bytes : Operand → List Byte
  | .imp | .acc => []
  | .imm b | .zp0 b | .zpx b | .zpy b | .rel b | .izx b | .izy b => [b]
  | .abs a | .abx a | .aby a | .ind a => [loByte a, hiByte a]

/-- The bytes of an instruction, in address order (R90). -/
def encode (i : Instr) : List Byte := i.row.opcode :: i.operand.bytes

/-- The 105 reserved opcode bytes, as R93 lists them. -/
def reservedOpcodes : List Byte :=
  [0x02, 0x03, 0x04, 0x07, 0x0B, 0x0C, 0x0F, 0x12, 0x13, 0x14, 0x17, 0x1A, 0x1B, 0x1C, 0x1F, 0x22, 0x23, 0x27, 0x2B, 0x2F, 0x32] ++
  [0x33, 0x34, 0x37, 0x3A, 0x3B, 0x3C, 0x3F, 0x42, 0x43, 0x44, 0x47, 0x4B, 0x4F, 0x52, 0x53, 0x54, 0x57, 0x5A, 0x5B, 0x5C, 0x5F] ++
  [0x62, 0x63, 0x64, 0x67, 0x6B, 0x6F, 0x72, 0x73, 0x74, 0x77, 0x7A, 0x7B, 0x7C, 0x7F, 0x80, 0x82, 0x83, 0x87, 0x89, 0x8B, 0x8F] ++
  [0x92, 0x93, 0x97, 0x9B, 0x9C, 0x9E, 0x9F, 0xA3, 0xA7, 0xAB, 0xAF, 0xB2, 0xB3, 0xB7, 0xBB, 0xBF, 0xC2, 0xC3, 0xC7, 0xCB, 0xCF] ++
  [0xD2, 0xD3, 0xD4, 0xD7, 0xDA, 0xDB, 0xDC, 0xDF, 0xE2, 0xE3, 0xE7, 0xEB, 0xEF, 0xF2, 0xF3, 0xF4, 0xF7, 0xFA, 0xFB, 0xFC, 0xFF]

/-- Byte `k` of an instruction whose bits are `w`, counting from the first byte (bits 7:0). -/
def wordByte (w k : Nat) : Byte := BitVec.ofNat 8 (w / 256 ^ k)

/-- The three bytes of an instruction given as the table numbers it: bits above `nbits` are 0. -/
def wordBytes (nbits w : Nat) : List Byte :=
  [wordByte (w % 2 ^ nbits) 0, wordByte (w % 2 ^ nbits) 1, wordByte (w % 2 ^ nbits) 2]

/-- The instruction the decoder reads from the bits `w` of spec/opcode_table.json's numbering: "As one little-endian
number an F2 instruction is `op1 ++ opcode` ... and an F3 instruction is `hi ++ lo ++ opcode`" (R90). -/
def decodeTableWord (nbits w : Nat) : Option Instr :=
  match decode (wordBytes nbits w) with
  | .ok (i, _) => some i
  | .error _ => none

end Sys2Proof
end

