-- ==== Sys2Proof/Machine/Fetch.lean ====
section
/-! DEFINITION. Fetching an instruction's bytes (30_encoding.md R108, R109), and placing an instruction where the fetch
will find it (log 4). -/

namespace Sys2Proof.Machine

/-- `FetchByte()`: an ordinary bus read at PC, with its side effects, then PC steps (R109). -/
def fetchByte (s : State) : Res (Byte × State) :=
  andThen (busRead s.cpu.pc s) fun r => .next (r.1, r.2.setPc (r.2.cpu.pc + 1))

/-- Fetch `n` bytes in address order (R109). -/
def fetchBytes : Nat → State → Res (List Byte × State)
  | 0, s => .next ([], s)
  | n + 1, s =>
    andThen (fetchByte s) fun b =>
    andThen (fetchBytes n b.2) fun bs => .next (b.1 :: bs.1, bs.2)

/-- Fetch and decode the instruction at PC (R108). A reserved opcode faults after its fetch (R93). -/
def fetchInstr (s : State) : Res (Instr × State) :=
  andThen (fetchByte s) fun op =>
  match lookup op.1 with
  | none => .fault (.illegalOpcode op.1 s.cpu.pc)
  | some e =>
    andThen (fetchBytes e.operandBytes op.2) fun bs =>
    match decode (op.1 :: bs.1) with
    | .ok d => .next (d.1, bs.2)
    | .error _ => .fault (.illegalOpcode op.1 s.cpu.pc)

/-- A CPU read of the address returns a stored byte and has no side effect (R65, R66). -/
def plainStorage (s : State) (addr : Word) : Bool :=
  match mapCpuRead s.params s.cart addr with
  | .offset _ => true
  | .fault => false
  | .none => decide (addr.toNat ≤ 0x1FFF) || (decide (0x6000 ≤ addr.toNat) && decide (addr.toNat ≤ 0x7FFF))

/-- Put a byte into the storage a CPU read of the address reads: the loader's access, not a bus write. -/
def storeCode (addr : Word) (b : Byte) (s : State) : State :=
  match mapCpuRead s.params s.cart addr with
  | .offset off => { s with cart := { s.cart with prg := s.cart.prg.write (s.cart.prgIndex off) b } }
  | .fault => s
  | .none =>
    if addr.toNat ≤ 0x1FFF then s.mapBus fun u => { u with ram := u.ram.write (addr.toNat % 0x800) b }
    else if 0x6000 ≤ addr.toNat ∧ addr.toNat ≤ 0x7FFF then
      s.mapBus fun u => { u with cartRam := u.cartRam.write (addr.toNat % 0x2000) b }
    else s

/-- Put bytes at consecutive addresses. -/
def placeBytes : Word → List Byte → State → State
  | _, [], s => s
  | a, b :: bs, s => placeBytes (a + 1) bs (storeCode a b s)

/-- The three addresses from PC on are plain storage. -/
def codeFits (s : State) : Bool :=
  plainStorage s s.cpu.pc && plainStorage s (s.cpu.pc + 1) && plainStorage s (s.cpu.pc + 2)

/-- An NMI is delivered by one of the next three dots (R245, R282). -/
def nmiDue (p : Ppu) : Bool :=
  p.nmiOut ||
    (p.nmiEnable &&
      (decide (p.scanline = 241 ∧ p.cycle ≤ 1) || decide (p.scanline = 240 ∧ p.cycle = 340)))

/-- The machine with no NMI due in its next clock. -/
def quietNmi (s : State) : State :=
  if nmiDue s.ppu then { s with ppu := { s.ppu with nmiOut := false, control := putBit s.ppu.control 7 false } } else s

/-- The machine about to execute the instruction at PC: no cycle owed, no NMI due, and PC moved to 0x0000 only where its
own address is no storage. -/
def readyToFetch (s : State) : State :=
  let s := (quietNmi s).setCycles 0
  if codeFits s then s else s.setPc 0x0000

end Sys2Proof.Machine
end

