-- ==== Sys2Proof/Machine/PpuDots.lean ====
section
/-! DEFINITION. The PPU's dot machine: one call of `ppuTick` is one dot (51_ppu.md sections 3 to 6). -/

namespace Sys2Proof.Machine

/-- `VblankEntry()` (R282). -/
def vblankEntry (p : Ppu) : Ppu := { p with vblank := true, nmiOut := p.nmiOut || p.nmiEnable }

/-- The pre-render clear of the three STATUS flags (R283). -/
def preRenderClear (p : Ppu) : Ppu := { p with vblank := false, sprite0 := false, overflow := false }

/-- Step A of a dot: the flags at (241, 1) and (261, 1) (R280, R282, R283). -/
def tickFlags (p : Ppu) : Ppu :=
  if p.scanline = 241 ∧ p.cycle = 1 then vblankEntry p
  else if p.scanline = 261 ∧ p.cycle = 1 then preRenderClear p
  else p

/-- A background pixel: its pattern value and its palette number. -/
structure BgPixel where
  px : BitVec 2
  pal : BitVec 2
deriving DecidableEq, Repr

/-- Two plane bits as a pixel value: `(hi << 1) | lo`. -/
def planes (hi lo : Bool) : BitVec 2 := BitVec.ofBool hi ++ BitVec.ofBool lo

/-- `BgPixel(x)` (R292). -/
def bgPixel (p : Ppu) (x : Nat) : BgPixel :=
  if p.showBg = false ∨ (x < 8 ∧ p.bgLeft = false) then { px := 0, pal := 0 }
  else
    let b := 15 - p.fineX.toNat
    { px := planes (p.bgHi.getLsbD b) (p.bgLo.getLsbD b), pal := planes (p.atHi.getLsbD b) (p.atLo.getLsbD b) }

/-- A non-transparent sprite pixel. -/
structure SprPixel where
  px : BitVec 2
  pal : BitVec 3
  behind : Bool
  isZero : Bool
deriving DecidableEq, Repr

/-- The pattern value a sprite unit shows at screen column `x`, 0 outside its eight columns (R293). -/
def unitPixel (u : SpriteUnit) (x : Nat) : BitVec 2 :=
  if u.x.toNat ≤ x ∧ x - u.x.toNat ≤ 7 then
    let d := x - u.x.toNat
    let col := if u.flipH then d else 7 - d
    planes (u.hi.getLsbD col) (u.lo.getLsbD col)
  else 0

/-- The first unit in order whose pixel at column `x` is not transparent (R293). -/
def firstOpaque : List SpriteUnit → Nat → Option SprPixel
  | [], _ => none
  | u :: us, x =>
    if unitPixel u x ≠ 0 then some { px := unitPixel u x, pal := u.palette, behind := u.behind, isZero := u.isZero }
    else firstOpaque us x

/-- `SprPixel(x)` (R293). -/
def sprPixel (p : Ppu) (x : Nat) : Option SprPixel :=
  if p.showSpr = false ∨ (x < 8 ∧ p.sprLeft = false) then none else firstOpaque p.units x

/-- The palette index of a background pixel: 0 when transparent, else `(bpal << 2) | bpx` (R294). -/
def bgIndex (b : BgPixel) : BitVec 5 := if b.px = 0 then 0 else (0#1 ++ b.pal ++ b.px : BitVec 5)

/-- The palette index of a sprite pixel: `(pal << 2) | px` (R294). -/
def sprIndex (sp : SprPixel) : BitVec 5 := (sp.pal ++ sp.px : BitVec 5)

/-- The palette index of the merged pixel (R294). -/
def mergeIndex (b : BgPixel) (sp : Option SprPixel) : BitVec 5 :=
  match sp with
  | none => bgIndex b
  | some sp => if b.px = 0 then sprIndex sp else if sp.behind then bgIndex b else sprIndex sp

/-- Sprite 0 hits at column `x`: both pixels are non-transparent and the column is not the last (R294). -/
def sprite0Hit (b : BgPixel) (sp : Option SprPixel) (x : Nat) : Bool :=
  match sp with
  | none => false
  | some sp => b.px != 0 && sp.isZero && x != 255

/-- `EmitPixel(x, y)` (R294, R295). -/
def emitPixel (p : Ppu) (x y : Nat) : Ppu :=
  let b := bgPixel p x
  let sp := sprPixel p x
  let idx := mergeIndex b sp
  { p with
    sprite0 := p.sprite0 || sprite0Hit b sp x
    framebuffer :=
      p.framebuffer.write (256 * y + x) ((p.pal.read (palIndex p (0x3F00#14 ||| idx.setWidth 14))).setWidth 6) }

/-- Step B of a dot: the pixel of dots 1 to 256 of a visible scanline (R280). -/
def tickPixel (p : Ppu) : Ppu :=
  if p.scanline ≤ 239 ∧ 1 ≤ p.cycle ∧ p.cycle ≤ 256 then emitPixel p (p.cycle - 1) p.scanline else p

/-- `ShiftBackground()` (R284). -/
def shiftBackground (p : Ppu) : Ppu :=
  { p with bgLo := p.bgLo <<< 1, bgHi := p.bgHi <<< 1, atLo := p.atLo <<< 1, atHi := p.atHi <<< 1 }

/-- The nametable address of a tile: `0x2000 | (v & 0x0FFF)` (R285). -/
def tileAddr (v : Scroll) : PpuAddr := 0x2000#14 ||| (v.setWidth 12).setWidth 14

/-- The attribute address of a tile (R285). -/
def attrAddr (v : Scroll) : PpuAddr :=
  0x23C0#14 ||| (v &&& 0x0C00).setWidth 14 ||| ((v >>> 4) &&& 0x38).setWidth 14 ||| ((v >>> 2) &&& 0x07).setWidth 14

/-- The shift that selects a tile's two bits of its attribute byte: 0, 2, 4 or 6 (R285). -/
def attrShift (v : Scroll) : Nat := 4 * (v.getLsbD 6).toNat + 2 * (v.getLsbD 1).toNat

/-- A pattern address: table bit, tile number and row (R285, R291). -/
def patternAddr (table : Bool) (tile : Byte) (row : BitVec 3) : PpuAddr :=
  ((BitVec.ofBool table).setWidth 14 <<< 12) ||| (tile.setWidth 14 <<< 4) ||| row.setWidth 14

/-- Load the low byte of a shift register (R285). -/
def loadLow (r : BitVec 16) (b : Byte) : BitVec 16 := (r &&& 0xFF00) ||| b.setWidth 16

/-- `FetchTile()` (R285). -/
def fetchTile (c : Cart) (p : Ppu) : Ppu :=
  let nt := ppuRead c p (tileAddr p.v)
  let at' := ppuRead c p (attrAddr p.v)
  let pal := at' >>> attrShift p.v
  let pa := patternAddr p.bgTable nt (fineY p.v)
  { p with
    bgLo := loadLow p.bgLo (ppuRead c p pa)
    bgHi := loadLow p.bgHi (ppuRead c p (pa + 8))
    atLo := loadLow p.atLo (if pal.getLsbD 0 then 0xFF else 0x00)
    atHi := loadLow p.atHi (if pal.getLsbD 1 then 0xFF else 0x00) }

/-- `IncCoarseX()` on `v` (R286). -/
def incCoarseX (v : Scroll) : Scroll :=
  if coarseX v = 31 then putField v 0 0#5 ^^^ 0x0400 else putField v 0 (coarseX v + 1)

/-- `IncY()` on `v` (R287): coarse-y wraps at 30 with a flip of the vertical nametable bit, at 32 without. -/
def incY (v : Scroll) : Scroll :=
  if (fineY v).toNat < 7 then putField v 12 (fineY v + 1)
  else
    let v := putField v 12 0#3
    if coarseY v = 29 then putField v 5 0#5 ^^^ 0x0800
    else if coarseY v = 31 then putField v 5 0#5
    else putField v 5 (coarseY v + 1)

/-- `CopyX()`: `v[4:0] <- t[4:0]; v[10] <- t[10]` (R288). -/
def copyX (v t : Scroll) : Scroll := putBit (putField v 0 (coarseX t)) 10 (t.getLsbD 10)

/-- The lines on which the background pipeline runs: 0 to 239 and 261 (R280). -/
def Ppu.renderLine (p : Ppu) : Bool := decide (p.scanline ≤ 239) || decide (p.scanline = 261)

/-- The dots at which the background shifts: 1 to 256 and 321 to 336 (R280). -/
def Ppu.shiftDot (p : Ppu) : Bool :=
  (decide (1 ≤ p.cycle) && decide (p.cycle ≤ 256)) || (decide (321 ≤ p.cycle) && decide (p.cycle ≤ 336))

/-- Shift, and at every eighth dot fetch a tile and step coarse-x (R280, R284 to R286). -/
def tickShift (c : Cart) (p : Ppu) : Ppu :=
  if p.shiftDot then
    let q := shiftBackground p
    if q.cycle % 8 = 0 then
      let q := fetchTile c q
      { q with v := incCoarseX q.v }
    else q
  else p

/-- The scroll updates of a dot: `IncY` at 256, `CopyX` at 257, the reload at 280 to 304 of line 261 (R280, R287 to
R289). -/
def tickScroll (p : Ppu) : Ppu :=
  let v := if p.cycle = 256 then incY p.v else p.v
  let v := if p.cycle = 257 then copyX v p.t else v
  let v := if p.scanline = 261 ∧ 280 ≤ p.cycle ∧ p.cycle ≤ 304 then p.t else v
  { p with v := v }

/-- Step C of a dot: the background pipeline, only while rendering (R280, R296). -/
def tickBackground (c : Cart) (p : Ppu) : Ppu :=
  if p.renderLine && p.rendering then tickScroll (tickShift c p) else p

/-- `EvalSprite(n)` (R290): the row of the sprite on this scanline lies in 0 to 7. -/
def evalSprite (p : Ppu) (n : BitVec 6) : Ppu :=
  let y := (p.oam.read (4 * n.toNat)).toNat
  if y ≤ p.scanline ∧ p.scanline - y ≤ 7 then
    if p.sec.length < 8 then { p with sec := p.sec ++ [n] } else { p with overflow := true }
  else p

/-- The unit `FetchSprite` enqueues for sprite `n` (R291). -/
def spriteUnit (c : Cart) (p : Ppu) (n : BitVec 6) : SpriteUnit :=
  let y := p.oam.read (4 * n.toNat)
  let tile := p.oam.read (4 * n.toNat + 1)
  let attr := p.oam.read (4 * n.toNat + 2)
  let x := p.oam.read (4 * n.toNat + 3)
  let row : BitVec 3 := (BitVec.ofNat 8 p.scanline - y).setWidth 3
  let row := if attr.getLsbD 7 then 7 - row else row
  let pa := patternAddr p.sprTable tile row
  { lo := ppuRead c p pa
    hi := ppuRead c p (pa + 8)
    x := x
    palette := 1#1 ++ attr.extractLsb' 0 2
    flipH := attr.getLsbD 6
    behind := attr.getLsbD 5
    isZero := n == 0 }

/-- `FetchSprite(k)` (R291). -/
def fetchSprite (c : Cart) (p : Ppu) (k : Nat) : Ppu :=
  match p.sec[k]? with
  | none => p
  | some n => { p with units := p.units ++ [spriteUnit c p n] }

/-- Evaluation at dots 65 to 128, one sprite a dot, the secondary OAM emptied first (R280, R290). -/
def tickEvaluate (p : Ppu) : Ppu :=
  let q := if p.cycle = 65 then { p with sec := [] } else p
  if 65 ≤ q.cycle ∧ q.cycle ≤ 128 then evalSprite q (BitVec.ofNat 6 (q.cycle - 65)) else q

/-- Sprite fetch at dots 257 + 8k, k in 0 to 7 (R280, R291). -/
def tickFetchSprite (c : Cart) (p : Ppu) : Ppu :=
  if 257 ≤ p.cycle ∧ p.cycle ≤ 320 ∧ (p.cycle - 257) % 8 = 0 then fetchSprite c p ((p.cycle - 257) / 8) else p

/-- Step D of a dot: the sprites (R280). The fetched units are dropped at dot 257 whether or not rendering is on. -/
def tickSprites (c : Cart) (p : Ppu) : Ppu :=
  if p.renderLine then
    let q := if p.cycle = 257 then { p with units := [] } else p
    if q.scanline ≤ 239 ∧ q.rendering = true then tickFetchSprite c (tickEvaluate q) else q
  else p

/-- Step E of a dot: `Advance()` (R281). -/
def advance (p : Ppu) : Ppu :=
  if p.cycle + 1 = 341 then
    if p.scanline + 1 = 262 then { p with cycle := 0, scanline := 0, frameComplete := !p.frameComplete }
    else { p with cycle := 0, scanline := p.scanline + 1 }
  else { p with cycle := p.cycle + 1 }

/-- `PpuTick()`: the steps A to E of one dot, in that order (R280). -/
def ppuTick (c : Cart) (p : Ppu) : Ppu := advance (tickSprites c (tickBackground c (tickPixel (tickFlags p))))

end Sys2Proof.Machine
end

