-- ==== Sys2Proof/Machine/Clock.lean ====
section
/-! DEFINITION. The clock of the machine: a PPU dot with NMI delivery, the CPU's clock step, and `Bus.clock()`
(50_bus.md R245, 30_encoding.md R108). -/

namespace Sys2Proof.Machine

/-- One PPU dot, then the NMI if the PPU has raised it: "after each dot" (R245). -/
def ppuDot (s : State) : Res State :=
  let p := ppuTick s.cart s.ppu
  if p.nmiOut then cpuNmi { s with ppu := { p with nmiOut := false } } else .next { s with ppu := p }

/-- The three dots of one clock (R245). -/
def threeDots (s : State) : Res State := andThen (ppuDot s) fun s => andThen (ppuDot s) fun s => ppuDot s

/-- Execute the whole instruction at PC (R108). -/
def runInstr (s : State) : Res State := andThen (fetchInstr s) fun r => exec r.1 r.2

/-- `CpuClock()` (R108): a whole instruction when no cycle is owed, then count one cycle down. -/
def cpuClock (s : State) : Res State :=
  andThen (if s.cpu.cycles = 0 then runInstr s else .next s) fun s => .next (s.setCycles (s.cpu.cycles - 1))

/-- `Bus.clock()` (R245). -/
def busClock (s : State) : Res State :=
  andThen (threeDots s) fun s =>
  andThen (cpuClock s) fun s => .next (s.mapBus fun b => { b with master := b.master + 1 })

end Sys2Proof.Machine
end

