-- ==== Sys2Proof/Machine/Step.lean ====
section
/-! DEFINITION. The step of the machine, and the placing of an instruction for the very next step. -/

namespace Sys2Proof.Machine

/-- One step is one call of `Bus.clock()` (R3, R245; log 9). -/
def step (s : State) : Host.Outcome State Fault Refusal := busClock s

/-- The machine whose next step fetches and runs the instruction with bits `w` (log 4): no cycle owed, no NMI due, the
three bytes stored where PC points. -/
def State.withFetchWord (s : State) (nbits w : Nat) : State :=
  let s := readyToFetch s
  placeBytes s.cpu.pc (wordBytes nbits w) s

end Sys2Proof.Machine
end

