-- ==== Sys2Proof/Machine/PowerOn.lean ====
section
/-! DEFINITION. Construction and power-on: the iNES file (52_cartridge_mapper.md R332, R333), the cartridge built from an
image (R331, R334, R345), and the machine after power-on (70_reset_and_hazards.md R411). -/

namespace Sys2Proof.Machine

/-- The magic signature, "NES" then 0x1A (R332). -/
def romMagic : List Byte := [0x4E, 0x45, 0x53, 0x1A]

/-- Byte `k` of a file, 0 past its end. -/
def fileByte (bs : List Byte) (k : Nat) : Byte := bs.getD k 0

/-- `mapper_id <- (flags7 & 0xF0) | (flags6 >> 4)` (R332). -/
def headerMapperId (bs : List Byte) : Byte := (fileByte bs 7 &&& 0xF0) ||| (fileByte bs 6 >>> 4)

/-- The file offset of the PRG data: after the header and the optional trainer (R332). -/
def prgStart (bs : List Byte) : Nat := 16 + if (fileByte bs 6).getLsbD 2 then 512 else 0

/-- The image a file's header describes (R332). -/
def headerImage (bs : List Byte) : Image :=
  let prgBanks := (fileByte bs 4).toNat
  let chrBanks := (fileByte bs 5).toNat
  { prgBanks := prgBanks
    prg := (bs.drop (prgStart bs)).take (prgBanks * 16384)
    chrBanks := chrBanks
    chr := (bs.drop (prgStart bs + prgBanks * 16384)).take (chrBanks * 8192)
    mapperId := headerMapperId bs
    headerArrangement := if (fileByte bs 6).getLsbD 0 then .vertical else .horizontal }

/-- Parse a ROM file, or say why it is refused (R332, R333; log 18); `none` is a missing file. -/
def parseRom : Option (List Byte) → Except LoadReason Image
  | none => .error .missingFile
  | some bs =>
    if bs.take 4 ≠ romMagic then .error .badMagic
    else if bs.length < 16 then .error .shortFile
    else
      match (headerImage bs).check with
      | some r => .error r
      | none => .ok (headerImage bs)

/-- The cartridge built from an image (R331): CHR RAM starts as zeros (R334), the MMC1 as R345 says. -/
def Cart.construct (im : Image) : Cart where
  prgBanks := im.prgBanks
  prg := Mem.ofList im.prg
  chrBanks := im.chrBanks
  chr := Mem.ofList im.chr
  headerArrangement := im.headerArrangement
  mapper := if im.mapperId = 0 then .nrom else .mmc1 Mmc1.construct

/-- The memory-initialisation parameters of R8, and the frame buffer's unspecified first contents (R31). -/
structure MemInit where
  ram : List Byte
  cartRam : List Byte
  oam : List Byte
  nt : List Byte
  pal : List Byte
  framebuffer : List (BitVec 6)
deriving DecidableEq, Repr

/-- The constructed machine before its first reset (R411, steps 1 to 3). The CPU's registers "do not matter". -/
def construct (ps : Params) (im : Image) (mi : MemInit) : State where
  cpu := { a := 0, x := 0, y := 0, sp := 0, pc := 0, p := 0, cycles := 0, adr := 0 }
  bus :=
    { ram := Mem.ofList (mi.ram.take 2048)
      cartRam := Mem.ofList (mi.cartRam.take 8192)
      master := 0
      dmaMark := false
      ctrlStrobe := false
      ctrlShift := 0
      buttons := 0 }
  ppu :=
    Ppu.construct (Mem.ofList (mi.oam.take 256)) (Mem.ofList (mi.nt.take 2048)) (Mem.ofList (mi.pal.take 32))
      (Mem.ofList (mi.framebuffer.take 61440))
  cart := Cart.construct im
  params := ps

/-- Power-on (R411): build the machine, then `Bus.reset()`; a rejected image gives no machine (R333, R380). -/
def powerOn (ps : Params) (im : Image) (mi : MemInit) : Res State :=
  match im.check with
  | some r => .refused (.loadRefused r)
  | none => busReset (construct ps im mi)

/-- Power-on from a ROM file (R332, R333, R411). -/
def powerOnFile (ps : Params) (file : Option (List Byte)) (mi : MemInit) : Res State :=
  match parseRom file with
  | .error r => .refused (.loadRefused r)
  | .ok im => powerOn ps im mi

end Sys2Proof.Machine
end

