-- ==== Sys2Proof/Machine/HostActions.lean ====
section
/-! DEFINITION. What the host may do between two clocks (00_scope.md R6), and a run as the sequence of its actions
(70_reset_and_hazards.md R423). -/

namespace Sys2Proof.Machine

/-- A host action (R6, R423). -/
inductive HostAction where
  /-- `Bus.clock()` (R245). -/
  | clock
  /-- `CpuIrq()` (R383). -/
  | irq
  /-- `Bus.reset()` (R246, R412). -/
  | reset
  /-- Set the controller's button state (R240). -/
  | buttons (b : Byte)
deriving DecidableEq, Repr

/-- `buttons <- b` (R240). -/
def setButtons (b : Byte) (s : State) : State := s.mapBus fun u => { u with buttons := b }

/-- Perform one host action. -/
def hostAct (h : HostAction) (s : State) : Res State :=
  match h with
  | .clock => step s
  | .irq => cpuIrq s
  | .reset => busReset s
  | .buttons b => .next (setButtons b s)

/-- Perform host actions in order, stopping at the first fault: the state is a function of them (R423). -/
def hostRun : List HostAction → State → Res State
  | [], s => .next s
  | h :: hs, s => andThen (hostAct h s) (hostRun hs)

/-- The pixel the host reads at column `x` of row `y` (R6, R295). -/
def pixel (s : State) (x y : Nat) : BitVec 6 := s.ppu.framebuffer.read (256 * y + x)

end Sys2Proof.Machine
end

