-- ==== Sys2Proof/Safety.lean ====
section
/-! DEFINITION. The terms statements are made in: the invariant of a built machine, the addresses an access faults at,
and a run without a fault. -/

namespace Sys2Proof.Machine

/-- An access to the address faults: the MMC1's PRG-RAM window, 0x6000-0x7FFF (R352). -/
def Blocked (c : Cart) (addr : Word) : Bool :=
  match c.mapper with
  | .nrom => false
  | .mmc1 _ => decide (0x6000 ≤ addr.toNat) && decide (addr.toNat < 0x8000)

/-- The byte a bus read of the address returns, 0 where it would fault. -/
def readByte (addr : Word) (s : State) : Byte :=
  match busRead addr s with
  | .next r => r.1
  | _ => 0

/-- The machine after a bus read of the address, unchanged where it would fault. -/
def afterRead (addr : Word) (s : State) : State :=
  match busRead addr s with
  | .next r => r.2
  | _ => s

/-- The machine after a bus write, unchanged where it would fault. -/
def afterWrite (addr : Word) (d : Byte) (s : State) : State :=
  match busWrite addr d s with
  | .next t => t
  | _ => s

/-- The word at a zero-page pointer, its high byte from the next zero-page byte, which wraps (R105, R106). -/
def zeroPageWord (z : Byte) (s : State) : Word := mkWord (s.bus.ram.read (z + 1).toNat) (s.bus.ram.read z.toNat)

/-- The effective address of an operand (R96 to R106); IMP, ACC and REL leave `adr` as it was. -/
def effAddr (o : Operand) (s : State) : Word :=
  match o with
  | .imp => s.cpu.adr
  | .acc => s.cpu.adr
  | .imm _ => s.cpu.pc - 1
  | .zp0 z => zext16 z
  | .zpx z => zext16 (z + s.cpu.x)
  | .zpy z => zext16 (z + s.cpu.y)
  | .rel _ => s.cpu.adr
  | .abs a => a
  | .abx a => a + zext16 s.cpu.x
  | .aby a => a + zext16 s.cpu.y
  | .ind a => mkWord (readByte (nextInPage a) (afterRead a s)) (readByte a s)
  | .izx z => zeroPageWord (z + s.cpu.x) s
  | .izy z => zeroPageWord z s + zext16 s.cpu.y

/-- The address an indexed mode adds its index register to (R102, R103, R106). -/
def indexBase (o : Operand) (s : State) : Word :=
  match o with
  | .izy z => zeroPageWord z s
  | .abx a | .aby a => a
  | .imp | .acc | .imm _ | .rel _ | .zp0 _ | .zpx _ | .zpy _ | .abs _ | .ind _ | .izx _ => effAddr o s

/-- `cross`: the indexed addition changed the high byte (R102, R103, R106). -/
def crossesPage (o : Operand) (s : State) : Bool := hiByte (effAddr o s) != hiByte (indexBase o s)

/-- No access of an operand falls into the window at which accesses fault (R130, R352). -/
def OperandOpen (o : Operand) (s : State) : Bool :=
  match o with
  | .ind a => !Blocked s.cart a && !Blocked s.cart (nextInPage a)
  | .imp | .acc | .imm _ | .rel _ => true
  | .zp0 _ | .zpx _ | .zpy _ | .abs _ | .abx _ | .aby _ | .izx _ | .izy _ => !Blocked s.cart (effAddr o s)

/-- The value an operand reads (R95, R96, section 3 of 30_encoding.md); IMP, REL and IND read none. -/
def operandValue (o : Operand) (s : State) : Byte :=
  match o with
  | .imm b => b
  | .acc => s.cpu.a
  | .imp | .rel _ | .ind _ => 0
  | .zp0 _ | .zpx _ | .zpy _ | .abs _ | .abx _ | .aby _ | .izx _ | .izy _ => readByte (effAddr o s) s

/-- The machine after an operand is resolved and its value read: `adr` set, and the side effect of the read. -/
def afterOperand (o : Operand) (s : State) : State :=
  match o with
  | .imp | .acc | .rel _ | .ind _ => s
  | .imm _ => s.setAdr (effAddr o s)
  | .zp0 _ | .zpx _ | .zpy _ | .abs _ | .abx _ | .aby _ | .izx _ | .izy _ => (afterRead (effAddr o s) s).setAdr (effAddr o s)

/-- The extra cycles of an instruction that is no branch, from its row of the table (R107, R113). -/
def extraCycles (i : Instr) (s : State) : Nat :=
  if i.row.extra = .pageCross then (crossesPage i.operand s).toNat else 0

/-- The machine with an instruction's whole cost in `cycles` (R108). -/
def charged (i : Instr) (s t : State) : State := t.setCycles (i.row.base + extraCycles i s)

/-- The outcome in which an instruction reads its operand, changes the CPU's registers by `f` and charges its cost. -/
def readsAndSets (i : Instr) (s : State) (f : Cpu → Cpu) : Res State :=
  .next (charged i s ((afterOperand i.operand s).mapCpu f))

/-- The outcome in which an instruction touches the CPU's registers only. -/
def setsRegisters (i : Instr) (s : State) (f : Cpu → Cpu) : Res State := .next (charged i s (s.mapCpu f))

/-- The outcome in which an instruction stores one byte at its effective address. -/
def storesByte (i : Instr) (s : State) (v : Byte) : Res State :=
  .next (charged i s (afterWrite (effAddr i.operand s) v (s.setAdr (effAddr i.operand s))))

/-- The outcome in which an instruction reads a byte, stores a byte at the same address and sets the status register. -/
def readsAndStores (i : Instr) (s : State) (v p : Byte) : Res State :=
  .next (charged i s ((afterWrite (effAddr i.operand s) v (afterOperand i.operand s)).setP p))

/-- The machine after `Push(v)` (R68). -/
def pushed (v : Byte) (s : State) : State :=
  (s.mapBus fun b => { b with ram := b.ram.write (256 + s.cpu.sp.toNat) v }).setSp (s.cpu.sp - 1)

/-- The byte `Pull()` gives when `k` bytes were pulled before it (R68). -/
def stackByte (k : Nat) (s : State) : Byte := s.bus.ram.read (256 + (s.cpu.sp + 1 + BitVec.ofNat 8 k).toNat)

/-- The handler address a vector holds (R389). -/
def vectorWord (vec : Word) (s : State) : Word := mkWord (readByte (vec + 1) s) (readByte vec s)

/-- The machine after an exception is taken with a given pushed status: three pushes, `I`, PC (R381). -/
def entered (status : Byte) (vec : Word) (s : State) : State :=
  let t := pushed status (pushed (loByte s.cpu.pc) (pushed (hiByte s.cpu.pc) s))
  (t.setP (setI s.cpu.p true)).setPc (vectorWord vec s)

/-- The instruction an entry of the opcode map selects, its operand bytes all zero. -/
def entrySample : Entry → Instr
  | .f1 i => i
  | .f2 mk => mk 0
  | .f3 mk => mk 0

/-- The encodings the decoder gives a mnemonic, by rising opcode: opcode byte, mode, base cycles, and how it comes by
extra cycles. This is the row of R113 read off the opcode map. -/
def encodings (m : Mnemonic) : List (Byte × Mode × Nat × Extra) :=
  (List.range 256).filterMap fun n =>
    match lookup (BitVec.ofNat 8 n) with
    | none => none
    | some e =>
      let r := (entrySample e).row
      if r.mnemonic = m then some (BitVec.ofNat 8 n, r.operand.mode, r.base, r.extra) else none

/-- The addresses behind which there is a device of the Bus, not storage (R393): the PPU's registers, the DMA trigger,
the controller port. -/
def IsDevice (a : Word) : Bool :=
  (decide (0x2000 ≤ a.toNat) && decide (a.toNat ≤ 0x3FFF)) || a == 0x4014 || a == 0x4016

/-- Two addresses name the same byte of storage: equal, or mirrors in CPU RAM (R233). -/
def sameByte (a b : Word) : Bool :=
  a == b || (decide (a.toNat ≤ 0x1FFF) && decide (b.toNat ≤ 0x1FFF) && decide (a.toNat % 0x800 = b.toNat % 0x800))

/-- None of `n` addresses from `a` on falls into the window at which accesses fault. -/
def codeOpen (c : Cart) : Nat → Word → Bool
  | 0, _ => true
  | n + 1, a => !Blocked c a && codeOpen c n (a + 1)

/-- The bytes that `n` reads in address order from `a` on return, and the machine after the reads (R109). -/
def bytesAt : Nat → Word → State → List Byte × State
  | 0, _, s => ([], s)
  | n + 1, a, s =>
    let r := bytesAt n (a + 1) (afterRead a s)
    (readByte a s :: r.1, r.2)

/-- Push bytes in order (R68). -/
def pushAll : List Byte → State → Res State
  | [], s => .next s
  | v :: vs, s => andThen (push v s) (pushAll vs)

/-- Pull a number of bytes (R68). -/
def pullAll : Nat → State → Res (List Byte × State)
  | 0, s => .next ([], s)
  | n + 1, s => andThen (pull s) fun r => andThen (pullAll n r.2) fun rs => .next (r.1 :: rs.1, rs.2)

/-- Bus writes in order. -/
def writeAll : List (Word × Byte) → State → Res State
  | [], s => .next s
  | w :: ws, s => andThen (busWrite w.1 w.2 s) (writeAll ws)

/-- The bytes that `n` reads of one address return (a device may answer differently each time). -/
def readTimes : Nat → Word → State → List Byte
  | 0, _, _ => []
  | n + 1, a, s => readByte a s :: readTimes n a (afterRead a s)

/-- The CPU's status register reads `U` as 1 and holds `B` as 0 between instructions (R24, R25). -/
def Cpu.Inv (c : Cpu) : Bool := flagU c.p && !flagB c.p

/-- The Bus's memories are canonical (R30). -/
def Bus.memWf (b : Bus) : Bool := b.ram.wf 2048 && b.cartRam.wf 8192

/-- The PPU's memories are canonical (R31). -/
def Ppu.memWf (p : Ppu) : Bool := p.oam.wf 256 && p.nt.wf 2048 && p.pal.wf 32 && p.framebuffer.wf 61440

/-- The cartridge's memories are canonical (R331, R334). -/
def Cart.memWf (c : Cart) : Bool := c.prg.wf c.prgSize && c.chr.wf c.chrSize

/-- The most sprite units there can be at a dot: slot `k` is fetched at dot `257 + 8k`, after dot 257 emptied the list
(R280, R291). -/
def unitsBound (scanline cycle : Nat) : Nat :=
  if scanline ≤ 239 ∧ 257 < cycle ∧ cycle ≤ 320 then (cycle - 250) / 8 else 8

/-- The PPU's position, lists and memories are in range, and no NMI request is left over (R31, R280, R282, R290, R291). -/
def Ppu.Inv (p : Ppu) : Bool :=
  decide (p.scanline ≤ 261) && decide (p.cycle ≤ 340) && !p.nmiOut && decide (p.sec.length ≤ 8) &&
    decide (p.units.length ≤ unitsBound p.scanline p.cycle) && p.memWf

/-- The mapper's counter is below five, and its shift register holds no bit not yet received (R345, R347). -/
def Mapper.Inv : Mapper → Bool
  | .nrom => true
  | .mmc1 r => decide (r.count ≤ 4) && decide (r.shift.toNat < 2 ^ r.count)

/-- The cartridge is one that loads, and its memories are canonical (R331, R333). -/
def Cart.Inv (c : Cart) : Bool :=
  decide (1 ≤ c.prgBanks) && c.memWf && c.mapper.Inv

/-- The invariant of a built machine, between two host actions. -/
def State.Inv (s : State) : Bool :=
  s.cpu.Inv && s.bus.memWf && s.ppu.Inv && s.cart.Inv && s.params.wellFormed

/-- Every memory of the machine is canonical. -/
def State.memWf (s : State) : Bool := s.bus.memWf && s.ppu.memWf && s.cart.memWf

/-- A run of `n` clocks raises no fault (R380: "a correct program on this hardware raises none"). -/
def SafeRun (n : Nat) (s : State) : Prop := ∃ t, hostRun (List.replicate n .clock) s = .next t

/-- The dot number of a position in the frame, 0 to 89341 (R281, R421). -/
def dotNumber (p : Ppu) : Nat := p.scanline * 341 + p.cycle

/-- `n` dots of the PPU alone. -/
def ppuTicks (c : Cart) : Nat → Ppu → Ppu
  | 0, p => p
  | n + 1, p => ppuTicks c n (ppuTick c p)

end Sys2Proof.Machine
end

