-- ==== Sys2Proof/Certificates/Slice0/Obligations.lean ====
section
/-! DEFINITION. The statements for the provers, one `Obligations.<Name>` each, from the numbered rules of the spec. An
instruction's own cost is `charged`; where the outcome of a bus access can be a fault, the hypothesis `OperandOpen` says
that the access is not in the one window that faults (R352). -/

section

open Sys2Proof Sys2Proof.Machine

/-- R90, R91, R113: decoding an instruction's bytes gives the instruction, and leaves the bytes that follow. -/
def Obligations.DecodeOfEncodeIsTheInstruction : Prop :=
  ∀ (i : Instr) (rest : List Byte), decode (encode i ++ rest) = .ok (i, rest)

/-- R90, R91, R113: the bytes consumed by a successful decoding are the encoding of its instruction. -/
def Obligations.EncodeOfDecodeIsTheBytes : Prop :=
  ∀ (bs rest : List Byte) (i : Instr), decode bs = .ok (i, rest) → bs = encode i ++ rest

/-- R93: the reserved bytes are refused by name. R92: under every other byte all operand values decode. -/
def Obligations.ReservedOpcodeBytesDoNotDecode : Prop :=
  (∀ (op : Byte) (rest : List Byte), op ∈ reservedOpcodes → decode (op :: rest) = .error (.reserved op)) ∧
  (∀ op b1 b2 : Byte, op ∉ reservedOpcodes → ∃ r, decode [op, b1, b2] = .ok r) ∧
  reservedOpcodes.length = 105 ∧ reservedOpcodes.Nodup

/-- Words written out from the encodings of R131, R132, R134, R156, R173, R174, R190, R191, R196 and R222 and the opcode
grid (R113), with the first byte in bits 7:0 (R90: opcode first, then the operand bytes, low byte first). B1 0F (R131)
and B6 0F (R132) come from the grid, the other nine from the rules' own pages. -/
def Obligations.SpecWordsDecodeAsTheSpecSays : Prop :=
  decodeTableWord 16 0x80A9 = some (.ldaImm 0x80) ∧
  decodeTableWord 24 0x02008D = some (.staAbs 0x0200) ∧
  decodeTableWord 16 0x10E6 = some (.incZp0 0x10) ∧
  decodeTableWord 24 0x02FF6C = some (.jmpInd 0x02FF) ∧
  decodeTableWord 24 0x900020 = some (.jsr 0x9000) ∧
  decodeTableWord 16 0x10F0 = some (.beq 0x10) ∧
  decodeTableWord 8 0x0A = some .aslAcc ∧
  decodeTableWord 24 0x20022C = some (.bitAbs 0x2002) ∧
  decodeTableWord 8 0x00 = some .brk ∧
  decodeTableWord 16 0x0FB1 = some (.ldaIzy 0x0F) ∧
  decodeTableWord 16 0x0FB6 = some (.ldxZpy 0x0F)

/-- R108, R109, R245: after the three dots, the instruction at PC is fetched by ordinary bus reads and executed whole. -/
def Obligations.StepRunsTheDecodedInstruction : Prop :=
  ∀ (s t : State) (i : Instr), threeDots s = .next t → t.cpu.cycles = 0 →
    codeOpen t.cart i.length t.cpu.pc = true → decode (bytesAt i.length t.cpu.pc t).1 = .ok (i, []) →
    step s =
      andThen (exec i ((bytesAt i.length t.cpu.pc t).2.setPc (t.cpu.pc + BitVec.ofNat 16 i.length)))
        (fun u => .next ((u.setCycles (u.cpu.cycles - 1)).mapBus fun b => { b with master := b.master + 1 })) ∧
    ((∀ k < i.length, plainStorage t (t.cpu.pc + BitVec.ofNat 16 k) = true) → (bytesAt i.length t.cpu.pc t).2 = t)

/-- R27, R108, R245: the cycles an instruction owes are `n` clocks of three dots in which the CPU does nothing else. -/
def Obligations.OwedCyclesDrainOnePerClock : Prop :=
  ∀ (n : Nat) (s : State), s.cpu.cycles = n → s.ppu.nmiOut = false → s.ppu.nmiEnable = false →
    hostRun (List.replicate n .clock) s =
      .next { s with
        cpu := { s.cpu with cycles := 0 }
        ppu := ppuTicks s.cart (3 * n) s.ppu
        bus := { s.bus with master := s.bus.master + n } }

/-- R131, R132, R133. -/
def Obligations.LoadsCopyTheirOperand : Prop :=
  encodings .LDA =
    [(0xA1, .izx, 6, .none), (0xA5, .zp0, 3, .none), (0xA9, .imm, 2, .none), (0xAD, .abs, 4, .none),
     (0xB1, .izy, 5, .pageCross), (0xB5, .zpx, 4, .none), (0xB9, .aby, 4, .pageCross),
     (0xBD, .abx, 4, .pageCross)] ∧
  encodings .LDX =
    [(0xA2, .imm, 2, .none), (0xA6, .zp0, 3, .none), (0xAE, .abs, 4, .none), (0xB6, .zpy, 4, .none),
     (0xBE, .aby, 4, .pageCross)] ∧
  encodings .LDY =
    [(0xA0, .imm, 2, .none), (0xA4, .zp0, 3, .none), (0xAC, .abs, 4, .none), (0xB4, .zpx, 4, .none),
     (0xBC, .abx, 4, .pageCross)] ∧
  ∀ (i : Instr) (s : State), OperandOpen i.operand s = true →
    let m := operandValue i.operand s
    (i.mnemonic = .LDA → exec i s = readsAndSets i s fun c => { c with a := m, p := setZN c.p m }) ∧
    (i.mnemonic = .LDX → exec i s = readsAndSets i s fun c => { c with x := m, p := setZN c.p m }) ∧
    (i.mnemonic = .LDY → exec i s = readsAndSets i s fun c => { c with y := m, p := setZN c.p m })

/-- R134, R135, R136. -/
def Obligations.StoresWriteTheirRegister : Prop :=
  encodings .STA =
    [(0x81, .izx, 6, .none), (0x85, .zp0, 3, .none), (0x8D, .abs, 4, .none), (0x91, .izy, 6, .none),
     (0x95, .zpx, 4, .none), (0x99, .aby, 5, .none), (0x9D, .abx, 5, .none)] ∧
  encodings .STX =
    [(0x86, .zp0, 3, .none), (0x8E, .abs, 4, .none), (0x96, .zpy, 4, .none)] ∧
  encodings .STY =
    [(0x84, .zp0, 3, .none), (0x8C, .abs, 4, .none), (0x94, .zpx, 4, .none)] ∧
  ∀ (i : Instr) (s : State), OperandOpen i.operand s = true →
    (i.mnemonic = .STA → exec i s = storesByte i s s.cpu.a) ∧
    (i.mnemonic = .STX → exec i s = storesByte i s s.cpu.x) ∧
    (i.mnemonic = .STY → exec i s = storesByte i s s.cpu.y)

/-- R137 to R142. -/
def Obligations.TransfersCopyRegisters : Prop :=
  encodings .TAX = [(0xAA, .imp, 2, .none)] ∧
  encodings .TAY = [(0xA8, .imp, 2, .none)] ∧
  encodings .TXA = [(0x8A, .imp, 2, .none)] ∧
  encodings .TYA = [(0x98, .imp, 2, .none)] ∧
  encodings .TSX = [(0xBA, .imp, 2, .none)] ∧
  encodings .TXS = [(0x9A, .imp, 2, .none)] ∧
  ∀ (i : Instr) (s : State),
    (i.mnemonic = .TAX → exec i s = setsRegisters i s fun c => { c with x := c.a, p := setZN c.p c.a }) ∧
    (i.mnemonic = .TAY → exec i s = setsRegisters i s fun c => { c with y := c.a, p := setZN c.p c.a }) ∧
    (i.mnemonic = .TXA → exec i s = setsRegisters i s fun c => { c with a := c.x, p := setZN c.p c.x }) ∧
    (i.mnemonic = .TYA → exec i s = setsRegisters i s fun c => { c with a := c.y, p := setZN c.p c.y }) ∧
    (i.mnemonic = .TSX → exec i s = setsRegisters i s fun c => { c with x := c.sp, p := setZN c.p c.sp }) ∧
    (i.mnemonic = .TXS → exec i s = setsRegisters i s fun c => { c with sp := c.x })

/-- R150 (in words), R151, R163. -/
def Obligations.AdcAddsWithCarry : Prop :=
  encodings .ADC =
    [(0x61, .izx, 6, .none), (0x65, .zp0, 3, .none), (0x69, .imm, 2, .none), (0x6D, .abs, 4, .none),
     (0x71, .izy, 5, .pageCross), (0x75, .zpx, 4, .none), (0x79, .aby, 4, .pageCross),
     (0x7D, .abx, 4, .pageCross)] ∧
  ∀ (i : Instr) (s : State), OperandOpen i.operand s = true → i.mnemonic = .ADC →
    let m := operandValue i.operand s
    let c := (flagC s.cpu.p).toNat
    let sum : Nat := s.cpu.a.toNat + m.toNat + c
    let signed : Int := s.cpu.a.toInt + m.toInt + (c : Int)
    let r := BitVec.ofNat 8 sum
    exec i s =
      readsAndSets i s fun k =>
        { k with
          a := r
          p := setZN (setV (setC k.p (decide (255 < sum))) (decide (signed < -128 ∨ 127 < signed))) r }

/-- R152, R163. -/
def Obligations.SbcSubtractsWithBorrow : Prop :=
  encodings .SBC =
    [(0xE1, .izx, 6, .none), (0xE5, .zp0, 3, .none), (0xE9, .imm, 2, .none), (0xED, .abs, 4, .none),
     (0xF1, .izy, 5, .pageCross), (0xF5, .zpx, 4, .none), (0xF9, .aby, 4, .pageCross),
     (0xFD, .abx, 4, .pageCross)] ∧
  ∀ (i : Instr) (s : State), OperandOpen i.operand s = true → i.mnemonic = .SBC →
    let m := operandValue i.operand s
    let borrow : Int := 1 - ((flagC s.cpu.p).toNat : Int)
    let diff : Int := (s.cpu.a.toNat : Int) - (m.toNat : Int) - borrow
    let signed : Int := s.cpu.a.toInt - m.toInt - borrow
    let r := BitVec.ofInt 8 diff
    exec i s =
      readsAndSets i s fun k =>
        { k with
          a := r
          p := setZN (setV (setC k.p (decide (0 ≤ diff))) (decide (signed < -128 ∨ 127 < signed))) r }

/-- R162(d): the inverse law that holds, and when the law without the forced carry holds. -/
def Obligations.SbcUndoesAdc : Prop :=
  ∀ (s : State) (b : Byte), ∃ t u v : State,
    exec (.adcImm b) s = .next t ∧
    exec (.sbcImm b) (t.setP (setC t.cpu.p (!flagC s.cpu.p))) = .next u ∧
    exec (.sbcImm b) t = .next v ∧
    u.cpu.a = s.cpu.a ∧ flagC u.cpu.p = !flagC t.cpu.p ∧
    ((v.cpu.a = s.cpu.a ∧ flagC v.cpu.p = flagC s.cpu.p) ↔ flagC t.cpu.p ≠ flagC s.cpu.p)

/-- R153, R154, R155. -/
def Obligations.ComparesSetFlagsOnly : Prop :=
  encodings .CMP =
    [(0xC1, .izx, 6, .none), (0xC5, .zp0, 3, .none), (0xC9, .imm, 2, .none), (0xCD, .abs, 4, .none),
     (0xD1, .izy, 5, .pageCross), (0xD5, .zpx, 4, .none), (0xD9, .aby, 4, .pageCross),
     (0xDD, .abx, 4, .pageCross)] ∧
  encodings .CPX =
    [(0xE0, .imm, 2, .none), (0xE4, .zp0, 3, .none), (0xEC, .abs, 4, .none)] ∧
  encodings .CPY =
    [(0xC0, .imm, 2, .none), (0xC4, .zp0, 3, .none), (0xCC, .abs, 4, .none)] ∧
  ∀ (i : Instr) (s : State), OperandOpen i.operand s = true →
    let m := operandValue i.operand s
    let compared (reg : Byte) : Prop :=
      exec i s =
        readsAndSets i s fun c =>
          { c with p := setN (setZ (setC c.p (decide (m.toNat ≤ reg.toNat))) (decide (reg = m))) ((reg - m).getLsbD 7) }
    (i.mnemonic = .CMP → compared s.cpu.a) ∧
    (i.mnemonic = .CPX → compared s.cpu.x) ∧
    (i.mnemonic = .CPY → compared s.cpu.y)

/-- R156 to R161. -/
def Obligations.IncrementsAndDecrementsWrap : Prop :=
  encodings .INC =
    [(0xE6, .zp0, 5, .none), (0xEE, .abs, 6, .none), (0xF6, .zpx, 6, .none), (0xFE, .abx, 7, .none)] ∧
  encodings .DEC =
    [(0xC6, .zp0, 5, .none), (0xCE, .abs, 6, .none), (0xD6, .zpx, 6, .none), (0xDE, .abx, 7, .none)] ∧
  encodings .INX = [(0xE8, .imp, 2, .none)] ∧
  encodings .INY = [(0xC8, .imp, 2, .none)] ∧
  encodings .DEX = [(0xCA, .imp, 2, .none)] ∧
  encodings .DEY = [(0x88, .imp, 2, .none)] ∧
  ∀ (i : Instr) (s : State),
    let m := operandValue i.operand s
    (OperandOpen i.operand s = true →
      (i.mnemonic = .INC → exec i s = readsAndStores i s (m + 1) (setZN s.cpu.p (m + 1))) ∧
      (i.mnemonic = .DEC → exec i s = readsAndStores i s (m - 1) (setZN s.cpu.p (m - 1)))) ∧
    (i.mnemonic = .INX → exec i s = setsRegisters i s fun c => { c with x := c.x + 1, p := setZN c.p (c.x + 1) }) ∧
    (i.mnemonic = .INY → exec i s = setsRegisters i s fun c => { c with y := c.y + 1, p := setZN c.p (c.y + 1) }) ∧
    (i.mnemonic = .DEX → exec i s = setsRegisters i s fun c => { c with x := c.x - 1, p := setZN c.p (c.x - 1) }) ∧
    (i.mnemonic = .DEY → exec i s = setsRegisters i s fun c => { c with y := c.y - 1, p := setZN c.p (c.y - 1) })

/-- R170 to R173. -/
def Obligations.LogicAndBitTestUseTheOperand : Prop :=
  encodings .AND =
    [(0x21, .izx, 6, .none), (0x25, .zp0, 3, .none), (0x29, .imm, 2, .none), (0x2D, .abs, 4, .none),
     (0x31, .izy, 5, .pageCross), (0x35, .zpx, 4, .none), (0x39, .aby, 4, .pageCross),
     (0x3D, .abx, 4, .pageCross)] ∧
  encodings .ORA =
    [(0x01, .izx, 6, .none), (0x05, .zp0, 3, .none), (0x09, .imm, 2, .none), (0x0D, .abs, 4, .none),
     (0x11, .izy, 5, .pageCross), (0x15, .zpx, 4, .none), (0x19, .aby, 4, .pageCross),
     (0x1D, .abx, 4, .pageCross)] ∧
  encodings .EOR =
    [(0x41, .izx, 6, .none), (0x45, .zp0, 3, .none), (0x49, .imm, 2, .none), (0x4D, .abs, 4, .none),
     (0x51, .izy, 5, .pageCross), (0x55, .zpx, 4, .none), (0x59, .aby, 4, .pageCross),
     (0x5D, .abx, 4, .pageCross)] ∧
  encodings .BIT = [(0x24, .zp0, 3, .none), (0x2C, .abs, 4, .none)] ∧
  ∀ (i : Instr) (s : State), OperandOpen i.operand s = true →
    let m := operandValue i.operand s
    let becomes (r : Byte) : Prop := exec i s = readsAndSets i s fun c => { c with a := r, p := setZN c.p r }
    (i.mnemonic = .AND → becomes (s.cpu.a &&& m)) ∧
    (i.mnemonic = .ORA → becomes (s.cpu.a ||| m)) ∧
    (i.mnemonic = .EOR → becomes (s.cpu.a ^^^ m)) ∧
    (i.mnemonic = .BIT →
      exec i s =
        readsAndSets i s fun c =>
          { c with p := setV (setN (setZ c.p (decide (c.a &&& m = 0))) (m.getLsbD 7)) (m.getLsbD 6) })

/-- R174 to R178. -/
def Obligations.ShiftsAndRotatesMoveOneBit : Prop :=
  encodings .ASL =
    [(0x06, .zp0, 5, .none), (0x0A, .acc, 2, .none), (0x0E, .abs, 6, .none), (0x16, .zpx, 6, .none),
     (0x1E, .abx, 7, .none)] ∧
  encodings .LSR =
    [(0x46, .zp0, 5, .none), (0x4A, .acc, 2, .none), (0x4E, .abs, 6, .none), (0x56, .zpx, 6, .none),
     (0x5E, .abx, 7, .none)] ∧
  encodings .ROL =
    [(0x26, .zp0, 5, .none), (0x2A, .acc, 2, .none), (0x2E, .abs, 6, .none), (0x36, .zpx, 6, .none),
     (0x3E, .abx, 7, .none)] ∧
  encodings .ROR =
    [(0x66, .zp0, 5, .none), (0x6A, .acc, 2, .none), (0x6E, .abs, 6, .none), (0x76, .zpx, 6, .none),
     (0x7E, .abx, 7, .none)] ∧
  ∀ (i : Instr) (s : State), OperandOpen i.operand s = true →
    let m := operandValue i.operand s
    let c := flagC s.cpu.p
    let becomes (r : Byte) (out : Bool) : Prop :=
      (i.operand = .acc → exec i s = setsRegisters i s fun k => { k with a := r, p := setZN (setC k.p out) r }) ∧
      (i.operand ≠ .acc → exec i s = readsAndStores i s r (setZN (setC s.cpu.p out) r))
    (i.mnemonic = .ASL → becomes (m.extractLsb' 0 7 ++ 0#1 : BitVec 8) (m.getLsbD 7)) ∧
    (i.mnemonic = .LSR → becomes (0#1 ++ m.extractLsb' 1 7 : BitVec 8) (m.getLsbD 0)) ∧
    (i.mnemonic = .ROL → becomes (m.extractLsb' 0 7 ++ BitVec.ofBool c : BitVec 8) (m.getLsbD 7)) ∧
    (i.mnemonic = .ROR → becomes (BitVec.ofBool c ++ m.extractLsb' 1 7 : BitVec 8) (m.getLsbD 0))

/-- R190 (and R104 for the pointer), R191, R192. -/
def Obligations.JumpsCallsAndReturns : Prop :=
  encodings .JMP = [(0x4C, .abs, 3, .none), (0x6C, .ind, 5, .none)] ∧
  encodings .JSR = [(0x20, .abs, 6, .none)] ∧
  encodings .RTS = [(0x60, .imp, 6, .none)] ∧
  (∀ (a : Word) (s : State), exec (.jmpAbs a) s = .next (((s.setAdr a).setPc a).setCycles 3)) ∧
  (∀ (a : Word) (s : State), OperandOpen (.ind a) s = true →
    let ph := mkWord (hiByte a) (loByte a + 1)
    let target := mkWord (readByte ph (afterRead a s)) (readByte a s)
    exec (.jmpInd a) s = .next ((((afterRead ph (afterRead a s)).setAdr target).setPc target).setCycles 5)) ∧
  (∀ (a : Word) (s : State),
    let ret := s.cpu.pc - 1
    exec (.jsr a) s =
      .next ((((pushed (loByte ret) (pushed (hiByte ret) s)).setAdr a).setPc a).setCycles 6)) ∧
  (∀ s : State,
    exec .rts s =
      .next (((s.setSp (s.cpu.sp + 2)).setPc (mkWord (stackByte 1 s) (stackByte 0 s) + 1)).setCycles 6))

/-- R193 to R201. -/
def Obligations.BranchesGoByOneFlag : Prop :=
  encodings .BCC = [(0x90, .rel, 2, .branch)] ∧
  encodings .BCS = [(0xB0, .rel, 2, .branch)] ∧
  encodings .BEQ = [(0xF0, .rel, 2, .branch)] ∧
  encodings .BNE = [(0xD0, .rel, 2, .branch)] ∧
  encodings .BMI = [(0x30, .rel, 2, .branch)] ∧
  encodings .BPL = [(0x10, .rel, 2, .branch)] ∧
  encodings .BVC = [(0x50, .rel, 2, .branch)] ∧
  encodings .BVS = [(0x70, .rel, 2, .branch)] ∧
  ∀ (off : Byte) (s : State),
    let p := s.cpu.p
    let target := s.cpu.pc + BitVec.ofInt 16 off.toInt
    let goes (condition : Prop) (r : Host.Outcome State Fault Refusal) : Prop :=
      (condition → r = .next ((s.setPc target).setCycles (if target.toNat / 256 = s.cpu.pc.toNat / 256 then 3 else 4))) ∧
      (¬ condition → r = .next (s.setCycles 2))
    goes (flagC p = false) (exec (.bcc off) s) ∧ goes (flagC p = true) (exec (.bcs off) s) ∧
    goes (flagZ p = true) (exec (.beq off) s) ∧ goes (flagZ p = false) (exec (.bne off) s) ∧
    goes (flagN p = true) (exec (.bmi off) s) ∧ goes (flagN p = false) (exec (.bpl off) s) ∧
    goes (flagV p = false) (exec (.bvc off) s) ∧ goes (flagV p = true) (exec (.bvs off) s)

/-- R210 to R213. -/
def Obligations.StackInstructionsPushAndPull : Prop :=
  encodings .PHA = [(0x48, .imp, 3, .none)] ∧
  encodings .PHP = [(0x08, .imp, 3, .none)] ∧
  encodings .PLA = [(0x68, .imp, 4, .none)] ∧
  encodings .PLP = [(0x28, .imp, 4, .none)] ∧
  ∀ s : State,
    let b := stackByte 0 s
    exec .pha s = .next ((pushed s.cpu.a s).setCycles 3) ∧
    exec .php s = .next ((pushed (s.cpu.p ||| 0x30) s).setCycles 3) ∧
    exec .pla s =
      .next (((s.setSp (s.cpu.sp + 1)).mapCpu fun c => { c with a := b, p := setZN c.p b }).setCycles 4) ∧
    exec .plp s =
      .next (((s.setSp (s.cpu.sp + 1)).setP (b.extractLsb' 6 2 ++ 2#2 ++ b.extractLsb' 0 4 : BitVec 8)).setCycles 4)

/-- R214 to R221. -/
def Obligations.FlagInstructionsWriteOneBit : Prop :=
  encodings .CLC = [(0x18, .imp, 2, .none)] ∧
  encodings .SEC = [(0x38, .imp, 2, .none)] ∧
  encodings .CLI = [(0x58, .imp, 2, .none)] ∧
  encodings .SEI = [(0x78, .imp, 2, .none)] ∧
  encodings .CLD = [(0xD8, .imp, 2, .none)] ∧
  encodings .SED = [(0xF8, .imp, 2, .none)] ∧
  encodings .CLV = [(0xB8, .imp, 2, .none)] ∧
  encodings .NOP = [(0xEA, .imp, 2, .none)] ∧
  ∀ s : State,
    let sets (r : Host.Outcome State Fault Refusal) (p : Byte) : Prop := r = .next ((s.setP p).setCycles 2)
    sets (exec .clc s) (s.cpu.p &&& 0xFE) ∧ sets (exec .sec s) (s.cpu.p ||| 0x01) ∧
    sets (exec .cli s) (s.cpu.p &&& 0xFB) ∧ sets (exec .sei s) (s.cpu.p ||| 0x04) ∧
    sets (exec .cld s) (s.cpu.p &&& 0xF7) ∧ sets (exec .sed s) (s.cpu.p ||| 0x08) ∧
    sets (exec .clv s) (s.cpu.p &&& 0xBF) ∧ sets (exec .nop s) s.cpu.p

/-- R222 (R385): `s.cpu.pc` is the address after the opcode byte. -/
def Obligations.BrkTakesTheInterrupt : Prop :=
  encodings .BRK = [(0x00, .imp, 7, .none)] ∧
  ∀ s : State,
    let ret := s.cpu.pc + 1
    let stacked := pushed (s.cpu.p ||| 0x30) (pushed (loByte ret) (pushed (hiByte ret) s))
    exec .brk s =
      .next (((stacked.setP ((s.cpu.p ||| 0x04) &&& 0xEF)).setPc
        (mkWord (readByte 0xFFFF s) (readByte 0xFFFE s))).setCycles 7)

/-- R223. -/
def Obligations.RtiReturnsFromTheInterrupt : Prop :=
  encodings .RTI = [(0x40, .imp, 6, .none)] ∧
  (∀ s : State,
    let b := stackByte 0 s
    exec .rti s =
      .next ((((s.setSp (s.cpu.sp + 3)).setP (b.extractLsb' 6 2 ++ 2#2 ++ b.extractLsb' 0 4 : BitVec 8)).setPc
        (mkWord (stackByte 2 s) (stackByte 1 s))).setCycles 6)) ∧
  (∀ s : State, s.cpu.Inv = true →
    (∃ t u, cpuNmi s = .next t ∧ exec .rti t = .next u ∧ u.cpu = { s.cpu with cycles := 6 }) ∧
    (∃ t u, cpuIrq s = .next t ∧
      (flagI s.cpu.p = false → exec .rti t = .next u ∧ u.cpu = { s.cpu with cycles := 6 })) ∧
    (∃ t u, exec .brk s = .next t ∧ exec .rti t = .next u ∧
      u.cpu = { s.cpu with pc := s.cpu.pc + 1, cycles := 6 }))

/-- R93, R130, R352, R380: where the two faults are raised. JMP and JSR use `adr` itself and access nothing there. -/
def Obligations.FaultsAreRaisedWhereTheSpecSays : Prop :=
  (∀ s t : State, threeDots s = .next t → t.cpu.cycles = 0 →
    (Blocked t.cart t.cpu.pc = true → step s = .fault (.unimplemented t.cpu.pc)) ∧
    (Blocked t.cart t.cpu.pc = false → readByte t.cpu.pc t ∈ reservedOpcodes →
      step s = .fault (.illegalOpcode (readByte t.cpu.pc t) t.cpu.pc))) ∧
  (∀ (i : Instr) (s : State), i.operand.mode ∉ [.imp, .acc, .imm, .rel, .ind] → i.mnemonic ∉ [.JMP, .JSR] →
    Blocked s.cart (effAddr i.operand s) = true →
    exec i s = .fault (.unimplemented (effAddr i.operand s))) ∧
  (∀ (a : Word) (s : State), Blocked s.cart a = true → exec (.jmpInd a) s = .fault (.unimplemented a))

/-- The frame of the forms that touch registers only (R137 to R142, R157, R158, R160, R161, R178, R214 to R221). That
`adr` keeps its value is the model's DESIGN CHOICE (log 11). -/
def Obligations.RegisterFormsLeaveTheRestAlone : Prop :=
  ∀ (i : Instr) (s t : State),
    (i.operand = .acc ∨
      i.mnemonic ∈ [.TAX, .TAY, .TXA, .TYA, .TSX, .TXS, .INX, .INY, .DEX, .DEY, .CLC, .SEC, .CLI, .SEI, .CLD, .SED,
        .CLV, .NOP]) →
    exec i s = .next t →
    t.bus = s.bus ∧ t.ppu = s.ppu ∧ t.cart = s.cart ∧ t.params = s.params ∧ (∀ a, readByte a t = readByte a s) ∧
    t.cpu.pc = s.cpu.pc ∧ t.cpu.adr = s.cpu.adr ∧
    (i.operand ≠ .acc → i.mnemonic ∉ [.TXA, .TYA] → t.cpu.a = s.cpu.a) ∧
    (i.mnemonic ∉ [.TAX, .TSX, .INX, .DEX] → t.cpu.x = s.cpu.x) ∧
    (i.mnemonic ∉ [.TAY, .INY, .DEY] → t.cpu.y = s.cpu.y) ∧
    (i.mnemonic ≠ .TXS → t.cpu.sp = s.cpu.sp)

/-- The frame of the forms that read a value and store nothing (R131 to R133, R151 to R155, R170 to R173). -/
def Obligations.ReadingFormsLeaveMemoryAlone : Prop :=
  ∀ (i : Instr) (s t : State),
    i.mnemonic ∈ [.LDA, .LDX, .LDY, .ADC, .SBC, .CMP, .CPX, .CPY, .AND, .ORA, .EOR, .BIT] →
    exec i s = .next t →
    (∀ a, IsDevice a = false → readByte a t = readByte a s) ∧
    t.bus.ram = s.bus.ram ∧ t.bus.cartRam = s.bus.cartRam ∧ t.cart = s.cart ∧ t.params = s.params ∧
    t.ppu.oam = s.ppu.oam ∧ t.ppu.nt = s.ppu.nt ∧ t.ppu.pal = s.ppu.pal ∧ t.ppu.framebuffer = s.ppu.framebuffer ∧
    t.cpu.pc = s.cpu.pc ∧ t.cpu.sp = s.cpu.sp ∧
    (i.mnemonic ∉ [.LDA, .ADC, .SBC, .AND, .ORA, .EOR] → t.cpu.a = s.cpu.a) ∧
    (i.mnemonic ≠ .LDX → t.cpu.x = s.cpu.x) ∧ (i.mnemonic ≠ .LDY → t.cpu.y = s.cpu.y) ∧
    (i.operand.mode = .imm ∨ IsDevice (effAddr i.operand s) = false →
      t.bus = s.bus ∧ t.ppu = s.ppu ∧ ∀ a, readByte a t = readByte a s)

/-- The frame of the storing forms; the address stored to is the one of the meaning, `effAddr i.operand s`
(R134 to R136, R156, R159, R174 to R178, R232). -/
def Obligations.StoringFormsChangeOneByte : Prop :=
  ∀ (i : Instr) (s t : State),
    i.mnemonic ∈ [.STA, .STX, .STY, .INC, .DEC, .ASL, .LSR, .ROL, .ROR] → i.operand ≠ .acc → exec i s = .next t →
    let e := effAddr i.operand s
    (∀ a, sameByte a e = false → IsDevice a = false →
      (a.toNat < 0x8000 ∨ e.toNat < 0x8000 ∨ s.cart.mapper = .nrom) → readByte a t = readByte a s) ∧
    t.cpu.pc = s.cpu.pc ∧ t.cpu.sp = s.cpu.sp ∧ t.cpu.a = s.cpu.a ∧ t.cpu.x = s.cpu.x ∧ t.cpu.y = s.cpu.y ∧
    (i.mnemonic ∈ [.STA, .STX, .STY] → t.cpu.p = s.cpu.p) ∧
    t.cart.prg = s.cart.prg ∧ t.params = s.params ∧
    (IsDevice e = false →
      t.ppu = s.ppu ∧ t.bus = { s.bus with ram := t.bus.ram, cartRam := t.bus.cartRam } ∧
      (e.toNat < 0x8000 → t.cart = s.cart))

/-- The frame of the stack forms; the bytes pushed go to `stackAddr` of SP, SP - 1, SP - 2
(R191, R192, R210 to R213, R222, R223). -/
def Obligations.StackFormsChangeOnlyTheirStackBytes : Prop :=
  ∀ (i : Instr) (s t : State) (pushes pulls : Nat),
    (i, pushes, pulls) ∈ [(.pha, 1, 0), (.php, 1, 0), (.pla, 0, 1), (.plp, 0, 1), (.rts, 0, 2), (.brk, 3, 0), (.rti, 0, 3)] ∨
      (∃ a, i = .jsr a) ∧ pushes = 2 ∧ pulls = 0 →
    exec i s = .next t →
    t.cpu.sp = s.cpu.sp - BitVec.ofNat 8 pushes + BitVec.ofNat 8 pulls ∧
    (∀ a, (∀ k < pushes, sameByte a (stackAddr (s.cpu.sp - BitVec.ofNat 8 k)) = false) → readByte a t = readByte a s) ∧
    t.ppu = s.ppu ∧ t.cart = s.cart ∧ t.params = s.params ∧ t.bus = { s.bus with ram := t.bus.ram } ∧
    t.cpu.x = s.cpu.x ∧ t.cpu.y = s.cpu.y ∧ (i ≠ .pla → t.cpu.a = s.cpu.a) ∧
    (i.mnemonic ∉ [.PLA, .PLP, .BRK, .RTI] → t.cpu.p = s.cpu.p) ∧
    (i.mnemonic ∈ [.PHA, .PHP, .PLA, .PLP] → t.cpu.pc = s.cpu.pc)

/-- The frame of JMP and the branches (R190, R193): an indirect JMP may read a pointer from a device. -/
def Obligations.JumpsAndBranchesChangeOnlyPc : Prop :=
  ∀ (i : Instr) (s t : State),
    i.mnemonic ∈ [.JMP, .BCC, .BCS, .BEQ, .BNE, .BMI, .BPL, .BVC, .BVS] → exec i s = .next t →
    t.cpu = { s.cpu with pc := t.cpu.pc, adr := t.cpu.adr, cycles := t.cpu.cycles } ∧
    t.cart = s.cart ∧ t.params = s.params ∧ (∀ a, IsDevice a = false → readByte a t = readByte a s) ∧
    t.bus.ram = s.bus.ram ∧ t.bus.cartRam = s.bus.cartRam ∧
    t.ppu.oam = s.ppu.oam ∧ t.ppu.nt = s.ppu.nt ∧ t.ppu.pal = s.ppu.pal ∧ t.ppu.framebuffer = s.ppu.framebuffer ∧
    (i.operand.mode ≠ .ind → t.bus = s.bus ∧ t.ppu = s.ppu ∧ ∀ a, readByte a t = readByte a s) ∧
    (∀ a, i.operand = .ind a → IsDevice a = false → IsDevice (nextInPage a) = false →
      t.bus = s.bus ∧ t.ppu = s.ppu ∧ ∀ b, readByte b t = readByte b s)

/-- R26 "written by", R24, R25. -/
def Obligations.FlagsChangeOnlyByTheirWriters : Prop :=
  ∀ (i : Instr) (s t : State), exec i s = .next t →
    (i.mnemonic ∉ [.ADC, .SBC, .CMP, .CPX, .CPY, .ASL, .LSR, .ROL, .ROR, .SEC, .CLC, .PLP, .RTI] →
      flagC t.cpu.p = flagC s.cpu.p) ∧
    (i.mnemonic ∉ [.LDA, .LDX, .LDY, .TAX, .TAY, .TXA, .TYA, .TSX, .PLA, .AND, .ORA, .EOR, .BIT, .ADC, .SBC, .CMP, .CPX,
        .CPY, .INC, .INX, .INY, .DEC, .DEX, .DEY, .ASL, .LSR, .ROL, .ROR, .PLP, .RTI] →
      flagZ t.cpu.p = flagZ s.cpu.p ∧ flagN t.cpu.p = flagN s.cpu.p) ∧
    (i.mnemonic ∉ [.SEI, .CLI, .PLP, .RTI, .BRK] → flagI t.cpu.p = flagI s.cpu.p) ∧
    (i.mnemonic ∉ [.SED, .CLD, .PLP, .RTI] → flagD t.cpu.p = flagD s.cpu.p) ∧
    (i.mnemonic ∉ [.ADC, .SBC, .BIT, .CLV, .PLP, .RTI] → flagV t.cpu.p = flagV s.cpu.p) ∧
    (flagU s.cpu.p = true → flagU t.cpu.p = true) ∧ (flagB s.cpu.p = false → flagB t.cpu.p = false) ∧
    (∀ p v : Byte, ∀ k < 8,
      (setZN p v).getLsbD k =
        if k = 1 then decide (v.toNat = 0) else if k = 7 then decide (128 ≤ v.toNat) else p.getLsbD k)

/-- R68. -/
def Obligations.StackIsLastInFirstOut : Prop :=
  (∀ (v : Byte) (s : State), push v s = .next (pushed v s) ∧ pushed v s =
    { s with
      bus := { s.bus with ram := s.bus.ram.write (0x100 + s.cpu.sp.toNat) v }
      cpu := { s.cpu with sp := s.cpu.sp - 1 } }) ∧
  (∀ s : State,
    pull s = .next (s.bus.ram.read (0x100 + (s.cpu.sp + 1).toNat), { s with cpu := { s.cpu with sp := s.cpu.sp + 1 } })) ∧
  (∀ (vs : List Byte) (s : State), ∃ t, pushAll vs s = .next t ∧
    t.cpu.sp = s.cpu.sp - BitVec.ofNat 8 vs.length ∧
    (vs.length ≤ 256 → ∃ u, pullAll vs.length t = .next (vs.reverse, u) ∧ u.cpu = s.cpu))

/-- R231, R233 to R236 (R243 for `busPeek`). Both mappers claim exactly the reads from 0x8000 up. -/
def Obligations.BusReadsDecodeByAddress : Prop :=
  ∀ (a : Word) (s : State),
    (0x8000 ≤ a.toNat → ∃ off, mapCpuRead s.params s.cart a = .offset off ∧
      busRead a s = .next (s.cart.prg.read (off % (s.cart.prgBanks * 16384)), s)) ∧
    (a.toNat ≤ 0x1FFF → busRead a s = .next (s.bus.ram.read (a.toNat % 2048), s)) ∧
    (0x2000 ≤ a.toNat → a.toNat ≤ 0x3FFF →
      busRead a s = .next ((ppuRegRead (BitVec.ofNat 3 (a.toNat % 8)) s.ppu s.cart).1,
        { s with ppu := (ppuRegRead (BitVec.ofNat 3 (a.toNat % 8)) s.ppu s.cart).2 })) ∧
    (a.toNat = 0x4016 → busRead a s = .next ((ctrlRead s.bus).1, { s with bus := (ctrlRead s.bus).2 })) ∧
    (0x4000 ≤ a.toNat → a.toNat ≤ 0x5FFF → a.toNat ≠ 0x4016 → busRead a s = .next (0, s)) ∧
    (0x6000 ≤ a.toNat → a.toNat ≤ 0x7FFF →
      (s.cart.mapper = .nrom → busRead a s = .next (s.bus.cartRam.read (a.toNat % 8192), s)) ∧
      (s.cart.mapper ≠ .nrom → busRead a s = .fault (.unimplemented a))) ∧
    (Blocked s.cart a = false → busPeek a s = some (readByte a s))

/-- R232 to R237, R341. -/
def Obligations.BusWritesDecodeByAddress : Prop :=
  ∀ (a : Word) (v : Byte) (s : State),
    (a.toNat ≤ 0x1FFF →
      busWrite a v s = .next { s with bus := { s.bus with ram := s.bus.ram.write (a.toNat % 2048) v } }) ∧
    (0x2000 ≤ a.toNat → a.toNat ≤ 0x3FFF →
      busWrite a v s =
        .next { s with
          ppu := (ppuRegWrite (BitVec.ofNat 3 (a.toNat % 8)) v s.ppu s.cart).1
          cart := (ppuRegWrite (BitVec.ofNat 3 (a.toNat % 8)) v s.ppu s.cart).2 }) ∧
    (a.toNat = 0x4014 →
      busWrite a v s =
        .next { s with ppu := oamDma v s.bus.ram s.ppu, bus := { s.bus with dmaMark := true } }) ∧
    (a.toNat = 0x4016 → busWrite a v s = .next { s with bus := ctrlWrite v s.bus }) ∧
    (0x4000 ≤ a.toNat → a.toNat ≤ 0x5FFF → a.toNat ≠ 0x4014 → a.toNat ≠ 0x4016 → busWrite a v s = .next s) ∧
    (0x6000 ≤ a.toNat → a.toNat ≤ 0x7FFF →
      (s.cart.mapper = .nrom →
        busWrite a v s = .next { s with bus := { s.bus with cartRam := s.bus.cartRam.write (a.toNat % 8192) v } }) ∧
      (s.cart.mapper ≠ .nrom → busWrite a v s = .fault (.unimplemented a))) ∧
    (0x8000 ≤ a.toNat →
      (s.cart.mapper = .nrom → busWrite a v s = .next s) ∧
      (∀ r, s.cart.mapper = .mmc1 r →
        busWrite a v s = .next { s with cart := { s.cart with mapper := .mmc1 (mmc1Serial r a v) } }))

/-- R371, R372 (R237 for the mark). -/
def Obligations.OamDmaCopiesAPage : Prop :=
  (∀ (page : Byte) (s : State), ∃ oam : Mem 8,
    busWrite 0x4014 page s =
      .next { s with ppu := { s.ppu with oam := oam }, bus := { s.bus with dmaMark := true } } ∧
    (∀ i < 256, oam.read ((s.ppu.oamAddr.toNat + i) % 256) = s.bus.ram.read ((256 * page.toNat + i) % 2048)) ∧
    (∀ k, 256 ≤ k → oam.read k = s.ppu.oam.read k)) ∧
  (∀ s t : State, exec (.staAbs 0x4014) s = .next t → t.cpu = { s.cpu with adr := 0x4014, cycles := 4 })

/-- R241, R242. -/
def Obligations.ControllerShiftsOutEightButtons : Prop :=
  ∀ (s : State) (on off : Byte) (n : Nat), on.getLsbD 0 = true → off.getLsbD 0 = false →
    (∃ t, writeAll [(0x4016, on)] s = .next t ∧
      readTimes n 0x4016 t = List.replicate n (if s.bus.buttons.getLsbD 0 then 1 else 0)) ∧
    (∃ t, writeAll [(0x4016, on), (0x4016, off)] s = .next t ∧
      readTimes n 0x4016 t =
        (List.range n).map fun k => if 8 ≤ k ∨ s.bus.buttons.getLsbD k = true then 1 else 0)

/-- R381, R383, R384 (R382 for the NMI). -/
def Obligations.InterruptsEnterTheirHandler : Prop :=
  ∀ s : State,
    let stacked := pushed ((s.cpu.p &&& 0xEF) ||| 0x20) (pushed (loByte s.cpu.pc) (pushed (hiByte s.cpu.pc) s))
    let enters (lo hi : Word) (cost : Nat) : State :=
      { stacked with
        cpu :=
          { stacked.cpu with
            p := s.cpu.p ||| 0x04
            pc := mkWord (readByte hi s) (readByte lo s)
            cycles := s.cpu.cycles + cost } }
    cpuNmi s = .next (enters 0xFFFA 0xFFFB s.params.cycNmi) ∧
    (flagI s.cpu.p = false → cpuIrq s = .next (enters 0xFFFE 0xFFFF s.params.cycIrq)) ∧
    (flagI s.cpu.p = true → cpuIrq s = .next s)

/-- R282, R382 (R245 for the place of the delivery). -/
def Obligations.NmiIsDeliveredAtVblankEntry : Prop :=
  ∀ s : State, s.ppu.nmiOut = false →
    let at241 : Prop := s.ppu.scanline = 241 ∧ s.ppu.cycle = 1
    let ticked : State := { s with ppu := { ppuTick s.cart s.ppu with nmiOut := false } }
    (at241 → s.ppu.control.getLsbD 7 = true → ppuDot s = cpuNmi ticked) ∧
    (¬ (at241 ∧ s.ppu.control.getLsbD 7 = true) → ppuDot s = .next ticked) ∧
    (at241 → ticked.ppu.vblank = true) ∧
    (∀ r, (ppuRegRead r s.ppu s.cart).2.nmiOut = false) ∧ (∀ r d, (ppuRegWrite r d s.ppu s.cart).1.nmiOut = false)

/-- R246, R410, R412, and R34's table of every value. -/
def Obligations.ResetSetsTheCpuAndTheBusCounters : Prop :=
  ∀ s : State,
    busReset s =
      .next { s with
        cpu :=
          { a := 0
            x := 0
            y := 0
            sp := 0xFD
            pc := mkWord (readByte 0xFFFD s) (readByte 0xFFFC s)
            p := s.params.pReset
            cycles := 8
            adr := 0 }
        bus := { s.bus with master := 0, dmaMark := false } }

/-- R411, R333. What a byte not given reads as is the model's choice (log 1). -/
def Obligations.PowerOnBuildsTheMachineOrRefuses : Prop :=
  ∀ (ps : Params) (im : Image) (mi : MemInit),
    (im.wellFormed = true → ∃ s, powerOn ps im mi = .next s ∧
      s.cpu = { a := 0, x := 0, y := 0, sp := 0xFD, pc := mkWord (readByte 0xFFFD s) (readByte 0xFFFC s), p := ps.pReset,
                cycles := 8, adr := 0 } ∧
      (∀ k < 2048, s.bus.ram.read k = mi.ram.getD k 0) ∧ (∀ k < 8192, s.bus.cartRam.read k = mi.cartRam.getD k 0) ∧
      (∀ k < 256, s.ppu.oam.read k = mi.oam.getD k 0) ∧ (∀ k < 2048, s.ppu.nt.read k = mi.nt.getD k 0) ∧
      (∀ k < 32, s.ppu.pal.read k = mi.pal.getD k 0) ∧ (∀ k, s.cart.prg.read k = im.prg.getD k 0) ∧
      (∀ k, s.cart.chr.read k = im.chr.getD k 0) ∧
      s.cart.prgBanks = im.prgBanks ∧ s.cart.chrBanks = im.chrBanks ∧ s.cart.mapperId = im.mapperId ∧
      s.cart.headerArrangement = im.headerArrangement ∧
      (∀ r, s.cart.mapper = .mmc1 r →
        r = { shift := 0, count := 0, control := 0x0C, chr0 := 0, chr1 := 0, prg := 0 }) ∧
      s.ppu = Ppu.construct s.ppu.oam s.ppu.nt s.ppu.pal s.ppu.framebuffer ∧
      s.bus = { s.bus with master := 0, dmaMark := false, ctrlStrobe := false, ctrlShift := 0 } ∧ s.params = ps ∧
      (ps.wellFormed = true → s.Inv = true)) ∧
    (im.wellFormed = false → ∃ r, powerOn ps im mi = .refused (.loadRefused r))

/-- R34, R411; the blank cartridge is the model's choice (log 3). -/
def Obligations.ResetStateMeetsTheInvariant : Prop := State.reset.Inv = true

/-- The invariant of R24, R25, R31, R290, R291, R345, and the canonical form of every memory, is kept by every step. -/
def Obligations.StepKeepsTheInvariant : Prop :=
  ∀ s t : State, s.Inv = true → step s = .next t → t.Inv = true

/-- R6, R423: the host's actions in any order keep the invariant. -/
def Obligations.HostActionsKeepTheInvariant : Prop :=
  ∀ (hs : List HostAction) (s t : State), s.Inv = true → hostRun hs s = .next t → t.Inv = true

/-- R330 ("The PRG and CHR ROM bytes never change after load"); the parameters are in the state by log 8. -/
def Obligations.RomAndParametersNeverChange : Prop :=
  ∀ s t : State, step s = .next t →
    t.cart.prg = s.cart.prg ∧ t.cart.prgBanks = s.cart.prgBanks ∧ t.cart.chrBanks = s.cart.chrBanks ∧
    t.cart.headerArrangement = s.cart.headerArrangement ∧ t.cart.mapperId = s.cart.mapperId ∧
    (s.cart.chrBanks ≠ 0 → t.cart.chr = s.cart.chr) ∧ t.params = s.params

/-- R391: "nothing else raises anything"; the data of the two faults by R380, R93 and R352. -/
def Obligations.OnlyTheTwoFaultsStopARun : Prop :=
  ∀ s : State,
    (∀ r, step s ≠ .refused r) ∧
    (∀ a, step s = .fault (.unimplemented a) → s.cart.mapper ≠ .nrom ∧ 0x6000 ≤ a.toNat ∧ a.toNat < 0x8000) ∧
    (∀ op a, step s = .fault (.illegalOpcode op a) →
      ∃ t, threeDots s = .next t ∧ t.cpu.cycles = 0 ∧ a = t.cpu.pc ∧ op = readByte t.cpu.pc t ∧ op ∈ reservedOpcodes) ∧
    (∀ t, threeDots s = .next t → s.cart.mapper = .nrom →
      (t.cpu.cycles = 0 → readByte t.cpu.pc t ∉ reservedOpcodes) → ∃ u, step s = .next u)

/-- R247; R245, R281 and R421 for the dots. -/
def Obligations.EveryStepIsThreeDotsAndOneCount : Prop :=
  ∀ s t : State, s.ppu.scanline ≤ 261 → s.ppu.cycle ≤ 340 → step s = .next t →
    t.bus.master = s.bus.master + 1 ∧ dotNumber t.ppu = (dotNumber s.ppu + 3) % 89342

/-- R262, R263, R267 to R271. The fields of `t` are written out as bit strings. -/
def Obligations.PpuRegisterWritesLandInTheirFields : Prop :=
  ∀ (a : Word) (d : Byte) (s : State), 0x2000 ≤ a.toNat → a.toNat ≤ 0x3FFF →
    let p := s.ppu
    let r := a.toNat % 8
    let gives (q : Ppu) : Prop := busWrite a d s = .next { s with ppu := q }
    (r = 0 → gives { p with
      control := d
      t := (p.t.extractLsb' 12 3 ++ d.extractLsb' 0 2 ++ p.t.extractLsb' 0 10 : BitVec 15) }) ∧
    (r = 1 → gives { p with mask := d }) ∧
    (r = 2 → gives p) ∧
    (r = 3 → gives { p with oamAddr := d }) ∧
    (r = 4 → gives { p with oam := p.oam.write p.oamAddr.toNat d, oamAddr := p.oamAddr + 1 }) ∧
    (r = 5 → p.w = false → gives { p with
      fineX := d.extractLsb' 0 3
      t := (p.t.extractLsb' 5 10 ++ d.extractLsb' 3 5 : BitVec 15)
      w := true }) ∧
    (r = 5 → p.w = true → gives { p with
      t := (d.extractLsb' 0 3 ++ p.t.extractLsb' 10 2 ++ d.extractLsb' 3 5 ++ p.t.extractLsb' 0 5 : BitVec 15)
      w := false }) ∧
    (r = 6 → p.w = false → gives { p with
      t := (0#1 ++ d.extractLsb' 0 6 ++ p.t.extractLsb' 0 8 : BitVec 15)
      w := true }) ∧
    (r = 6 → p.w = true → gives { p with
      t := (p.t.extractLsb' 8 7 ++ d : BitVec 15)
      v := (p.t.extractLsb' 8 7 ++ d : BitVec 15)
      w := false }) ∧
    (r = 7 →
      let m := ppuWrite s.cart p (p.v.extractLsb' 0 14) d
      busWrite a d s = .next { s with
        ppu := { m.1 with v := BitVec.ofNat 15 (p.v.toNat + if p.control.getLsbD 2 then 32 else 1) }
        cart := m.2 })

/-- R266, R268, R272 (R261 for the registers that are only written). -/
def Obligations.PpuRegisterReadsAnswerAndActOnce : Prop :=
  ∀ (a : Word) (s : State), 0x2000 ≤ a.toNat → a.toNat ≤ 0x3FFF →
    let p := s.ppu
    let r := a.toNat % 8
    let m := ppuRead s.cart p (p.v.extractLsb' 0 14)
    (r = 2 → busRead a s =
      .next ((BitVec.ofBool p.vblank ++ BitVec.ofBool p.sprite0 ++ BitVec.ofBool p.overflow ++ 0#5 : BitVec 8),
        { s with ppu := { p with vblank := false, w := false } })) ∧
    (r = 4 → busRead a s = .next (p.oam.read p.oamAddr.toNat, s)) ∧
    (r = 7 → busRead a s =
      .next (if p.v.toNat % 0x4000 < 0x3F00 then p.dataBuffer else m,
        { s with ppu :=
          { p with
            dataBuffer := m
            v := BitVec.ofNat 15 (p.v.toNat + if p.control.getLsbD 2 then 32 else 1) } })) ∧
    (r ∉ [2, 4, 7] → busRead a s = .next (0, s))

/-- R275 to R277, R338, R339, R350, R351; which palette entry an address is stands in `PaletteSlotsFold`. -/
def Obligations.PpuMemoryReadsBackWhatWasWritten : Prop :=
  ∀ (c : Cart) (p : Ppu) (a b : PpuAddr) (d : Byte),
    let after := ppuWrite c p a d
    (∀ off, mapPpuRead c a = some off →
      ppuRead c p a = c.chr.read (off % (if c.chrBanks = 0 then 8192 else c.chrBanks * 8192))) ∧
    (0x2000 ≤ a.toNat → a.toNat ≤ 0x3EFF → ppuRead c p a = p.nt.read (ntIndex c a)) ∧
    (0x3F00 ≤ a.toNat → ppuRead c p a = p.pal.read (palIndex p a)) ∧
    ntIndex c a =
      1024 * (if cartArrangement c = .horizontal then a.getLsbD 11 else a.getLsbD 10).toNat + a.toNat % 1024 ∧
    (c.mapper = .nrom → cartArrangement c = c.headerArrangement) ∧
    (∀ r, c.mapper = .mmc1 r →
      cartArrangement c =
        if r.control.toNat % 4 = 2 then .vertical
        else if r.control.toNat % 4 = 3 then .horizontal
        else c.headerArrangement) ∧
    (0x2000 ≤ a.toNat → ppuRead after.2 after.1 a = d) ∧
    (0x2000 ≤ a.toNat →
      ¬ (a.toNat ≤ 0x3EFF ∧ 0x2000 ≤ b.toNat ∧ b.toNat ≤ 0x3EFF ∧ ntIndex c a = ntIndex c b) →
      ¬ (0x3F00 ≤ a.toNat ∧ 0x3F00 ≤ b.toNat ∧ palIndex p a = palIndex p b) →
      ppuRead after.2 after.1 b = ppuRead c p b) ∧
    (cartArrangement c = .horizontal → ntIndex c a = ntIndex c (a ^^^ 0x0400)) ∧
    (cartArrangement c = .vertical → ntIndex c a = ntIndex c (a ^^^ 0x0800)) ∧
    ntIndex c a = ntIndex c (a ^^^ 0x1000) ∧ ntIndex c a < 2048 ∧
    (c.chrBanks ≠ 0 → a.toNat < 0x2000 → after = (p, c)) ∧
    (c.chrBanks = 0 → a.toNat < 0x2000 →
      after = (p, { c with chr := after.2.chr }) ∧ ppuRead after.2 after.1 a = d ∧
      ∀ x y, mapPpuRead c a = some x → mapPpuRead c b = some y → x % 8192 ≠ y % 8192 →
        ppuRead after.2 after.1 b = ppuRead c p b)

/-- R278. -/
def Obligations.PaletteSlotsFold : Prop :=
  ∀ (p : Ppu) (a : PpuAddr),
    let i := a.toNat % 32
    let both := p.mask.getLsbD 3 = true ∧ p.mask.getLsbD 4 = true
    palIndex p a < 32 ∧ (∀ k < 4, palIndex p a ≠ 16 + 4 * k) ∧
    (i % 4 ≠ 0 → palIndex p a = i) ∧
    (i % 4 = 0 → both → palIndex p a = 0) ∧
    (i % 4 = 0 → ¬ both → palIndex p a = i % 16)

/-- R281. -/
def Obligations.AFrameIsEightyNineThousandDots : Prop :=
  ∀ (c : Cart) (p : Ppu), p.scanline ≤ 261 → p.cycle ≤ 340 →
    (∀ n, dotNumber (ppuTicks c n p) = (dotNumber p + n) % 89342) ∧
    (∀ n, (ppuTicks c n p).scanline ≤ 261 ∧ (ppuTicks c n p).cycle ≤ 340) ∧
    ((ppuTick c p).frameComplete ≠ p.frameComplete ↔ p.scanline = 261 ∧ p.cycle = 340) ∧
    (ppuTicks c 89342 p).frameComplete = !p.frameComplete

/-- R296, R283. -/
def Obligations.RenderingOffHoldsThePipeline : Prop :=
  ∀ (c : Cart) (p : Ppu),
    let q := ppuTick c p
    (p.scanline = 261 → p.cycle = 1 → q.vblank = false ∧ q.sprite0 = false ∧ q.overflow = false) ∧
    (p.scanline = 241 → p.cycle = 1 → q.vblank = true ∧ q.nmiOut = (p.nmiOut || p.control.getLsbD 7)) ∧
    (p.scanline ≤ 261 → p.cycle ≤ 340 → dotNumber q = (dotNumber p + 1) % 89342) ∧
    (p.mask.getLsbD 3 = false → p.mask.getLsbD 4 = false →
      q.v = p.v ∧ q.t = p.t ∧ q.bgLo = p.bgLo ∧ q.bgHi = p.bgHi ∧ q.atLo = p.atLo ∧ q.atHi = p.atHi ∧ q.sec = p.sec ∧
      q.units = (if p.cycle = 257 ∧ (p.scanline ≤ 239 ∨ p.scanline = 261) then [] else p.units) ∧
      (p.scanline ≤ 239 → 1 ≤ p.cycle → p.cycle ≤ 256 →
        q.framebuffer = p.framebuffer.write (256 * p.scanline + (p.cycle - 1)) ((p.pal.read 0).setWidth 6)) ∧
      (¬ (p.scanline ≤ 239 ∧ 1 ≤ p.cycle ∧ p.cycle ≤ 256) → q.framebuffer = p.framebuffer))

/-- R290. -/
def Obligations.EvaluationSelectsTheFirstEightSprites : Prop :=
  ∀ (c : Cart) (p : Ppu), p.scanline ≤ 239 → p.cycle = 65 → p.rendering = true →
    let onLine := (List.range 64).filter fun n =>
      decide ((p.oam.read (4 * n)).toNat ≤ p.scanline ∧ p.scanline ≤ (p.oam.read (4 * n)).toNat + 7)
    let q := ppuTicks c 64 p
    q.sec = (onLine.take 8).map (BitVec.ofNat 6) ∧ q.overflow = (p.overflow || decide (8 < onLine.length))

/-- R291. -/
def Obligations.SpriteFetchFillsTheUnits : Prop :=
  ∀ (c : Cart) (p : Ppu), p.scanline ≤ 239 → p.cycle = 257 → p.rendering = true → p.sec.length ≤ 8 →
    (ppuTicks c 64 p).units =
      p.sec.map fun n =>
        let byte (k : Nat) : Byte := p.oam.read (4 * n.toNat + k)
        let row := (p.scanline + 256 - (byte 0).toNat) % 8
        let row := if (byte 2).getLsbD 7 then 7 - row else row
        let pa := (if p.control.getLsbD 3 then 0x1000 else 0) + 16 * (byte 1).toNat + row
        { lo := ppuRead c p (BitVec.ofNat 14 pa)
          hi := ppuRead c p (BitVec.ofNat 14 (pa + 8))
          x := byte 3
          palette := BitVec.ofNat 3 (4 + (byte 2).toNat % 4)
          flipH := (byte 2).getLsbD 6
          behind := (byte 2).getLsbD 5
          isZero := decide (n = 0) }

/-- R294 (R295 for the six bits), with the pixels of R292 and R293. -/
def Obligations.AVisibleDotEmitsTheMergedPixel : Prop :=
  ∀ (c : Cart) (p : Ppu), p.scanline ≤ 239 → 1 ≤ p.cycle → p.cycle ≤ 256 →
    let x := p.cycle - 1
    let b := bgPixel p x
    let q := ppuTick c p
    let shows (entry : Nat) : Prop :=
      q.framebuffer =
        p.framebuffer.write (256 * p.scanline + x) ((p.pal.read (palIndex p (BitVec.ofNat 14 (0x3F00 + entry)))).setWidth 6)
    (b.px = 0 → sprPixel p x = none → shows 0) ∧
    (b.px ≠ 0 → sprPixel p x = none → shows (4 * b.pal.toNat + b.px.toNat)) ∧
    (∀ sp, sprPixel p x = some sp →
      (b.px ≠ 0 → sp.behind = true → shows (4 * b.pal.toNat + b.px.toNat)) ∧
      (b.px = 0 ∨ sp.behind = false → shows (4 * sp.pal.toNat + sp.px.toNat))) ∧
    (q.sprite0 = true ↔
      p.sprite0 = true ∨ (b.px ≠ 0 ∧ x ≠ 255 ∧ ∃ sp, sprPixel p x = some sp ∧ sp.isZero = true))

/-- R292, R293. -/
def Obligations.SpritePixelIsTheFirstOpaqueUnit : Prop :=
  ∀ (p : Ppu) (x : Nat),
    let bit (r : BitVec 16) : Nat := (r.getLsbD (15 - p.fineX.toNat)).toNat
    let bgHidden := p.mask.getLsbD 3 = false ∨ (x < 8 ∧ p.mask.getLsbD 1 = false)
    let sprHidden := p.mask.getLsbD 4 = false ∨ (x < 8 ∧ p.mask.getLsbD 2 = false)
    let value (u : SpriteUnit) : Nat :=
      if u.x.toNat ≤ x ∧ x < u.x.toNat + 8 then
        let col := if u.flipH then x - u.x.toNat else 7 - (x - u.x.toNat)
        2 * (u.hi.getLsbD col).toNat + (u.lo.getLsbD col).toNat
      else 0
    (bgHidden → (bgPixel p x).px = 0) ∧
    (¬ bgHidden →
      (bgPixel p x).px.toNat = 2 * bit p.bgHi + bit p.bgLo ∧ (bgPixel p x).pal.toNat = 2 * bit p.atHi + bit p.atLo) ∧
    (sprHidden → sprPixel p x = none) ∧
    (¬ sprHidden → (∀ u ∈ p.units, value u = 0) → sprPixel p x = none) ∧
    (¬ sprHidden → ∀ before u rest, p.units = before ++ u :: rest → (∀ w ∈ before, value w = 0) → value u ≠ 0 →
      ∃ sp, sprPixel p x = some sp ∧ sp.px.toNat = value u ∧ sp.pal = u.palette ∧ sp.behind = u.behind ∧
        sp.isZero = u.isZero)

/-- R286, R287, R288. -/
def Obligations.ScrollStepsWrapAsOnePosition : Prop :=
  let xOf (v : Scroll) : Nat := v.toNat % 32 + 32 * (v.getLsbD 10).toNat
  let row (v : Scroll) : Nat := v.toNat / 4096 % 8 + 8 * (v.toNat / 32 % 32)
  let yOf (v : Scroll) : Nat := row v + 240 * (v.getLsbD 11).toNat
  ∀ v t : Scroll,
    (xOf (incCoarseX v) = (xOf v + 1) % 64 ∧ yOf (incCoarseX v) = yOf v ∧ row (incCoarseX v) = row v) ∧
    (v.toNat / 32 % 32 < 30 →
      yOf (incY v) = (yOf v + 1) % 480 ∧ row (incY v) = (row v + 1) % 240 ∧
      (incY v).getLsbD 11 = (v.getLsbD 11 != decide (row v = 239)) ∧ xOf (incY v) = xOf v) ∧
    (30 ≤ v.toNat / 32 % 32 →
      row (incY v) = (row v + 1) % 256 ∧ (incY v).getLsbD 11 = v.getLsbD 11 ∧ xOf (incY v) = xOf v) ∧
    (xOf (copyX v t) = xOf t ∧ yOf (copyX v t) = yOf v ∧ row (copyX v t) = row v)

/-- R280 (steps C), R289. -/
def Obligations.RenderingMovesVAtItsDots : Prop :=
  ∀ (c : Cart) (p : Ppu), p.rendering = true →
    let q := ppuTick c p
    let line := p.scanline ≤ 239 ∨ p.scanline = 261
    let fetchDot := p.cycle % 8 = 0 ∧ (8 ≤ p.cycle ∧ p.cycle ≤ 256 ∨ 328 ≤ p.cycle ∧ p.cycle ≤ 336)
    let shiftDot := 1 ≤ p.cycle ∧ p.cycle ≤ 256 ∨ 321 ≤ p.cycle ∧ p.cycle ≤ 336
    let reload := p.scanline = 261 ∧ 280 ≤ p.cycle ∧ p.cycle ≤ 304
    (line → fetchDot → p.cycle ≠ 256 → q.v = incCoarseX p.v) ∧
    (line → p.cycle = 256 → q.v = incY (incCoarseX p.v)) ∧
    (line → p.cycle = 257 → q.v = copyX p.v p.t) ∧
    (reload → q.v = p.t) ∧
    (¬ line ∨ ¬ fetchDot ∧ p.cycle ≠ 257 ∧ ¬ reload → q.v = p.v) ∧
    (line → shiftDot → ¬ fetchDot →
      q.bgLo = p.bgLo <<< 1 ∧ q.bgHi = p.bgHi <<< 1 ∧ q.atLo = p.atLo <<< 1 ∧ q.atHi = p.atHi <<< 1) ∧
    (¬ line ∨ ¬ shiftDot → q.bgLo = p.bgLo ∧ q.bgHi = p.bgHi ∧ q.atLo = p.atLo ∧ q.atHi = p.atHi)

/-- R284, R285, with the addresses as numbers. -/
def Obligations.TileFetchLoadsTheNextTile : Prop :=
  ∀ (c : Cart) (p : Ppu), p.rendering = true → p.scanline ≤ 239 ∨ p.scanline = 261 →
    p.cycle % 8 = 0 → (8 ≤ p.cycle ∧ p.cycle ≤ 256 ∨ 328 ≤ p.cycle ∧ p.cycle ≤ 336) →
    let q := ppuTick c p
    let n := p.v.toNat
    let x := n % 32
    let y := n / 32 % 32
    let table := n / 1024 % 4
    let tile := ppuRead c p (BitVec.ofNat 14 (0x2000 + n % 4096))
    let attr := ppuRead c p (BitVec.ofNat 14 (0x2000 + 1024 * table + 0x3C0 + 8 * (y / 4) + x / 4))
    let shift := 4 * (y / 2 % 2) + 2 * (x / 2 % 2)
    let pa := (if p.control.getLsbD 4 then 0x1000 else 0) + 16 * tile.toNat + n / 4096
    let takes (after before : BitVec 16) (b : Byte) : Prop := after = (before.extractLsb' 7 8 ++ b : BitVec 16)
    takes q.bgLo p.bgLo (ppuRead c p (BitVec.ofNat 14 pa)) ∧
    takes q.bgHi p.bgHi (ppuRead c p (BitVec.ofNat 14 (pa + 8))) ∧
    takes q.atLo p.atLo (if attr.getLsbD shift then 0xFF else 0x00) ∧
    takes q.atHi p.atHi (if attr.getLsbD (shift + 1) then 0xFF else 0x00)

/-- R340, R342. -/
def Obligations.NromMapsItsBanks : Prop :=
  ∀ (ps : Params) (c : Cart) (a : Word) (b : PpuAddr), c.mapper = .nrom →
    (a.toNat < 0x8000 → mapCpuRead ps c a = .none) ∧
    (0x8000 ≤ a.toNat → 2 ≤ c.prgBanks → mapCpuRead ps c a = .offset (a.toNat - 0x8000)) ∧
    (0x8000 ≤ a.toNat → c.prgBanks < 2 → mapCpuRead ps c a = .offset (a.toNat % 0x4000)) ∧
    mapPpuRead c b = (if b.toNat < 0x2000 then some b.toNat else none) ∧
    mapPpuWrite c b = (if b.toNat < 0x2000 ∧ c.chrBanks = 0 then some b.toNat else none)

/-- R347. -/
def Obligations.Mmc1SerialPortLoadsOnTheFifthWrite : Prop :=
  ∀ (s : State) (r : Mmc1), s.cart.mapper = .mmc1 r →
    let gives (ws : List (Word × Byte)) (q : Mmc1) : Prop :=
      writeAll ws s = .next { s with cart := { s.cart with mapper := .mmc1 q } }
    (∀ (a : Word) (d : Byte), 0x8000 ≤ a.toNat → d.getLsbD 7 = true →
      gives [(a, d)] { r with shift := 0, count := 0, control := 0x0C }) ∧
    (∀ (a : Word) (d : Byte), 0x8000 ≤ a.toNat → d.getLsbD 7 = false → r.count < 4 →
      ∃ q, gives [(a, d)] q ∧ q = { r with shift := q.shift, count := r.count + 1 } ∧
        ∀ k < 5, q.shift.getLsbD k = (r.shift.getLsbD k || (decide (k = r.count) && d.getLsbD 0))) ∧
    (∀ (a : Word) (d : Byte), a.toNat < 0x6000 → cartCpuWrite s.cart a d = .none) ∧
    (∀ (a : Word) (d : Byte), 0x6000 ≤ a.toNat → a.toNat < 0x8000 → cartCpuWrite s.cart a d = .fault) ∧
    (r.shift = 0 → r.count = 0 → ∀ (a0 a1 a2 a3 a4 : Word) (d0 d1 d2 d3 d4 : Byte),
      (∀ a ∈ [a0, a1, a2, a3, a4], 0x8000 ≤ a.toNat) → (∀ d ∈ [d0, d1, d2, d3, d4], d.getLsbD 7 = false) →
      let bits : BitVec 5 :=
        d4.extractLsb' 0 1 ++ d3.extractLsb' 0 1 ++ d2.extractLsb' 0 1 ++ d1.extractLsb' 0 1 ++ d0.extractLsb' 0 1
      gives [(a0, d0), (a1, d1), (a2, d2), (a3, d3), (a4, d4)]
        (match a4.toNat / 0x2000 % 4 with
          | 0 => { r with control := bits }
          | 1 => { r with chr0 := bits }
          | 2 => { r with chr1 := bits }
          | _ => { r with prg := bits }))

/-- R348, R349, R352. -/
def Obligations.Mmc1BanksItsWindows : Prop :=
  ∀ (ps : Params) (c : Cart) (r : Mmc1) (a : Word) (b : PpuAddr) (d : Byte), c.mapper = .mmc1 r →
    let mode := r.control.toNat / 4 % 4
    let bank := r.prg.toNat % 16
    (a.toNat < 0x6000 → mapCpuRead ps c a = .none ∧ cartCpuWrite c a d = .none) ∧
    (0x6000 ≤ a.toNat → a.toNat < 0x8000 → mapCpuRead ps c a = .fault ∧ cartCpuWrite c a d = .fault) ∧
    (0x8000 ≤ a.toNat → mode < 2 →
      mapCpuRead ps c a = .offset (0x8000 * ps.prg32.toList.getD r.prg.toNat 0 + (a.toNat - 0x8000))) ∧
    (0x8000 ≤ a.toNat → a.toNat < 0xC000 →
      (mode = 2 → mapCpuRead ps c a = .offset (a.toNat - 0x8000)) ∧
      (mode = 3 → mapCpuRead ps c a = .offset (0x4000 * bank + (a.toNat - 0x8000)))) ∧
    (0xC000 ≤ a.toNat →
      (mode = 2 → mapCpuRead ps c a = .offset (0x4000 * bank + (a.toNat - 0xC000))) ∧
      (mode = 3 → mapCpuRead ps c a = .offset (0x4000 * (c.prgBanks - 1) + (a.toNat - 0xC000)))) ∧
    (b.toNat < 0x2000 → r.control.getLsbD 4 = false →
      mapPpuRead c b = some (0x2000 * (r.chr0.toNat / 2) + b.toNat)) ∧
    (b.toNat < 0x1000 → r.control.getLsbD 4 = true → mapPpuRead c b = some (0x1000 * r.chr0.toNat + b.toNat)) ∧
    (0x1000 ≤ b.toNat → b.toNat < 0x2000 → r.control.getLsbD 4 = true →
      mapPpuRead c b = some (0x1000 * r.chr1.toNat + (b.toNat - 0x1000))) ∧
    (0x2000 ≤ b.toNat → mapPpuRead c b = none) ∧
    mapPpuWrite c b = (if c.chrBanks = 0 then mapPpuRead c b else none)

end
end

