-- ==== Sys2Proof/Laws/Bits.lean ====
section
/-! SUPPORT. Bit fields, byte order and sign extension: what each helper of Machine/Bits.lean does, bit by bit. -/

namespace Sys2Proof

theorem getLsbD_putBit {n : Nat} (x : BitVec n) (i : Nat) (b : Bool) (j : Nat) :
    (putBit x i b).getLsbD j = if j = i ∧ j < n then b else x.getLsbD j := by
  unfold putBit
  by_cases hj : j < n
  · by_cases hij : j = i
    · subst hij
      cases b <;> simp [hj]
    · cases b <;> simp [hj, hij] <;> intros <;> omega
  · have hx : x.getLsbD j = false := BitVec.getLsbD_of_ge x j (by omega)
    cases b <;> simp [hj, hx]

theorem getLsbD_putField {n k : Nat} (x : BitVec n) (lo : Nat) (f : BitVec k) (j : Nat) :
    (putField x lo f).getLsbD j = if lo ≤ j ∧ j < lo + k ∧ j < n then f.getLsbD (j - lo) else x.getLsbD j := by
  unfold putField
  by_cases hj : j < n
  · by_cases hlo : lo ≤ j
    · have hlt : ¬ j < lo := by omega
      by_cases hk : j < lo + k
      · have h1 : j - lo < k := by omega
        simp [hj, hlo, hk, h1, hlt]
      · have h1 : ¬ j - lo < k := by omega
        have hf : f.getLsbD (j - lo) = false := BitVec.getLsbD_of_ge f _ (by omega)
        simp [hj, hlo, hk, h1, hf]
    · have hlt : j < lo := by omega
      simp [hj, hlo, hlt]
  · have hx : x.getLsbD j = false := BitVec.getLsbD_of_ge x j (by omega)
    simp [hj, hx]

theorem getLsbD_mkWord (hi lo : Byte) (j : Nat) :
    (mkWord hi lo).getLsbD j = if j < 8 then lo.getLsbD j else hi.getLsbD (j - 8) := by
  unfold mkWord
  rw [BitVec.getLsbD_append]

theorem getLsbD_hiByte (a : Word) (j : Nat) : (hiByte a).getLsbD j = (decide (j < 8) && a.getLsbD (8 + j)) := by
  simp [hiByte, BitVec.getLsbD_extractLsb']

theorem getLsbD_loByte (a : Word) (j : Nat) : (loByte a).getLsbD j = (decide (j < 8) && a.getLsbD j) := by
  simp [loByte, BitVec.getLsbD_extractLsb']

@[simp] theorem mkWord_hiByte_loByte (a : Word) : mkWord (hiByte a) (loByte a) = a := by
  apply BitVec.eq_of_getLsbD_eq
  intro j hj
  rw [getLsbD_mkWord, getLsbD_hiByte, getLsbD_loByte]
  by_cases h : j < 8
  · simp [h]
  · have h1 : j - 8 < 8 := by omega
    have h2 : 8 + (j - 8) = j := by omega
    simp [h, h1, h2]

@[simp] theorem hiByte_mkWord (hi lo : Byte) : hiByte (mkWord hi lo) = hi := by
  apply BitVec.eq_of_getLsbD_eq
  intro j hj
  rw [getLsbD_hiByte, getLsbD_mkWord]
  simp [hj]

@[simp] theorem loByte_mkWord (hi lo : Byte) : loByte (mkWord hi lo) = lo := by
  apply BitVec.eq_of_getLsbD_eq
  intro j hj
  rw [getLsbD_loByte, getLsbD_mkWord]
  simp [hj]

@[simp] theorem toNat_zext16 (b : Byte) : (zext16 b).toNat = b.toNat := by
  have := b.isLt
  simp only [zext16, BitVec.toNat_setWidth]
  omega

theorem toNat_mkWord (hi lo : Byte) : (mkWord hi lo).toNat = hi.toNat * 256 + lo.toNat := by
  have h2 := lo.isLt
  simp only [mkWord, BitVec.toNat_append, Nat.shiftLeft_eq]
  rw [Nat.mul_comm, ← Nat.two_pow_add_eq_or_of_lt h2]

theorem toNat_hiByte (a : Word) : (hiByte a).toNat = a.toNat / 256 := by
  have h := a.isLt
  simp [hiByte, Nat.shiftRight_eq_div_pow]
  omega

theorem toNat_loByte (a : Word) : (loByte a).toNat = a.toNat % 256 := by
  simp [loByte]

theorem pageMask_bit : ∀ j < 16, (0xFF00#16).getLsbD j = decide (8 ≤ j) := by decide

theorem samePage_iff (a b : Word) : a &&& 0xFF00 = b &&& 0xFF00 ↔ hiByte a = hiByte b := by
  constructor
  · intro h
    apply BitVec.eq_of_getLsbD_eq
    intro j hj
    have hc := congrArg (fun v : BitVec 16 => v.getLsbD (8 + j)) h
    have hm := pageMask_bit (8 + j) (by omega)
    simp only [BitVec.ofNat_eq_ofNat, BitVec.getLsbD_and, hm] at hc
    rw [getLsbD_hiByte, getLsbD_hiByte]
    simpa [hj] using hc
  · intro h
    apply BitVec.eq_of_getLsbD_eq
    intro j hj
    have hm := pageMask_bit j hj
    simp only [BitVec.ofNat_eq_ofNat, BitVec.getLsbD_and, hm]
    by_cases h8 : 8 ≤ j
    · have hc := congrArg (fun v : BitVec 8 => v.getLsbD (j - 8)) h
      have h1 : j - 8 < 8 := by omega
      have h2 : 8 + (j - 8) = j := by omega
      simp only [getLsbD_hiByte, h1, h2, decide_true, Bool.true_and] at hc
      simp [hc]
    · simp [h8]

/-- The page test of R102 and R193 compares the high bytes. -/
theorem pageDiffers_eq (a b : Word) : pageDiffers a b = (hiByte a != hiByte b) := by
  unfold pageDiffers
  rw [Bool.eq_iff_iff]
  simp only [bne_iff_ne, ne_eq, samePage_iff]

end Sys2Proof
end

