-- ==== Sys2Proof/Laws/Memory.lean ====
section
/-! SUPPORT. The laws of a memory array: read after write, every operation keeps the canonical form, and canonical
arrays that read the same are the same. -/

namespace Sys2Proof.Machine

variable {w : Nat}

theorem Mem.read_erase (m : Mem w) (a k : Nat) : (m.erase a).read k = if k = a then Mem.blank else m.read k := by
  induction m with
  | nil => simp [Mem.erase, Mem.read]
  | cons e m ih =>
    obtain ⟨i, c⟩ := e
    by_cases hi : i = a
    · subst hi
      have he : Mem.erase ((i, c) :: m) i = Mem.erase m i := by simp [Mem.erase]
      rw [he, ih]
      by_cases hk : k = i
      · simp [hk]
      · simp [hk, Mem.read, Ne.symm hk]
    · have he : Mem.erase ((i, c) :: m) a = (i, c) :: Mem.erase m a := by simp [Mem.erase, hi]
      rw [he]
      by_cases hik : i = k
      · subst hik
        simp [Mem.read, hi]
      · simp [Mem.read, hik, ih]

theorem Mem.read_insert (m : Mem w) (a : Nat) (b : BitVec w) (k : Nat)
    (hm : ∀ e ∈ m, e.1 ≠ a) : (m.insert a b).read k = if k = a then b else m.read k := by
  induction m with
  | nil => by_cases hk : k = a <;> simp [Mem.insert, Mem.read, hk, Ne.symm]
  | cons e m ih =>
    obtain ⟨i, c⟩ := e
    have hia : i ≠ a := hm (i, c) (by simp)
    have ih' := ih (fun e he => hm e (by simp [he]))
    simp only [Mem.insert]
    split
    · by_cases hk : k = a
      · simp [Mem.read, hk]
      · simp [Mem.read, hk, Ne.symm hk]
    · by_cases hik : i = k
      · subst hik
        simp [Mem.read, hia]
      · simp [Mem.read, hik, ih']

theorem Mem.not_mem_erase (m : Mem w) (a : Nat) : ∀ e ∈ m.erase a, e.1 ≠ a := by
  intro e he
  simp only [Mem.erase, List.mem_filter, bne_iff_ne] at he
  exact he.2

/-- Read after write, at the same index and at every other, on any list. -/
theorem Mem.read_write (m : Mem w) (a : Nat) (b : BitVec w) (k : Nat) :
    (m.write a b).read k = if k = a then b else m.read k := by
  unfold Mem.write
  split
  · rename_i hb
    rw [Mem.read_erase, hb]
  · rw [Mem.read_insert _ _ _ _ (Mem.not_mem_erase m a), Mem.read_erase]
    by_cases hk : k = a <;> simp [hk]

@[simp] theorem Mem.read_write_same (m : Mem w) (a : Nat) (b : BitVec w) : (m.write a b).read a = b := by
  simp [Mem.read_write]

theorem Mem.read_write_other (m : Mem w) {a k : Nat} (b : BitVec w) (h : k ≠ a) :
    (m.write a b).read k = m.read k := by
  simp [Mem.read_write, h]

@[simp] theorem Mem.read_nil (k : Nat) : Mem.read ([] : Mem w) k = 0 := rfl

theorem Mem.risingFrom_mono {m : Mem w} {lo lo' : Nat} (h : lo' ≤ lo) (hm : Mem.risingFrom lo m = true) :
    Mem.risingFrom lo' m = true := by
  cases m with
  | nil => rfl
  | cons e m =>
    simp only [Mem.risingFrom, Bool.and_eq_true, decide_eq_true_eq] at hm ⊢
    exact ⟨⟨by omega, hm.1.2⟩, hm.2⟩

theorem Mem.risingFrom_erase {m : Mem w} {lo : Nat} (a : Nat) (hm : Mem.risingFrom lo m = true) :
    Mem.risingFrom lo (m.erase a) = true := by
  induction m generalizing lo with
  | nil => rfl
  | cons e m ih =>
    obtain ⟨i, c⟩ := e
    simp only [Mem.risingFrom, Bool.and_eq_true, decide_eq_true_eq] at hm
    by_cases hi : i = a
    · have he : Mem.erase ((i, c) :: m) a = Mem.erase m a := by simp [Mem.erase, hi]
      rw [he]
      exact Mem.risingFrom_mono (by omega) (ih hm.2)
    · have he : Mem.erase ((i, c) :: m) a = (i, c) :: Mem.erase m a := by simp [Mem.erase, hi]
      rw [he]
      simp only [Mem.risingFrom, Bool.and_eq_true, decide_eq_true_eq]
      exact ⟨hm.1, ih hm.2⟩

theorem Mem.risingFrom_insert {m : Mem w} {lo a : Nat} {b : BitVec w} (hb : b ≠ Mem.blank) (hlo : lo ≤ a)
    (hm : Mem.risingFrom lo m = true) (hn : ∀ e ∈ m, e.1 ≠ a) : Mem.risingFrom lo (m.insert a b) = true := by
  induction m generalizing lo with
  | nil => simp [Mem.insert, Mem.risingFrom, hb, hlo]
  | cons e m ih =>
    obtain ⟨i, c⟩ := e
    have hia : i ≠ a := hn (i, c) (by simp)
    simp only [Mem.risingFrom, Bool.and_eq_true, decide_eq_true_eq] at hm
    simp only [Mem.insert]
    split
    · simp only [Mem.risingFrom, Bool.and_eq_true, decide_eq_true_eq, bne_iff_ne]
      exact ⟨⟨hlo, hb⟩, ⟨by omega, by simpa using hm.1.2⟩, hm.2⟩
    · simp only [Mem.risingFrom, Bool.and_eq_true, decide_eq_true_eq]
      exact ⟨hm.1, ih (by omega) hm.2 (fun e he => hn e (by simp [he]))⟩

theorem Mem.mem_insert {m : Mem w} {a : Nat} {b : BitVec w} {e : Nat × BitVec w} (he : e ∈ m.insert a b) :
    e = (a, b) ∨ e ∈ m := by
  induction m with
  | nil => simpa [Mem.insert] using he
  | cons x m ih =>
    obtain ⟨i, c⟩ := x
    simp only [Mem.insert] at he
    split at he
    · simpa using he
    · rcases List.mem_cons.mp he with h | h
      · exact .inr (by simp [h])
      · rcases ih h with h | h
        · exact .inl h
        · exact .inr (by simp [h])

theorem Mem.wf_iff {size : Nat} {m : Mem w} :
    m.wf size = true ↔ Mem.risingFrom 0 m = true ∧ ∀ e ∈ m, e.1 < size := by
  simp [Mem.wf]

/-- A write keeps the canonical form. -/
theorem Mem.wf_write {size : Nat} {m : Mem w} {a : Nat} (b : BitVec w) (hm : m.wf size = true) (ha : a < size) :
    (m.write a b).wf size = true := by
  rw [Mem.wf_iff] at hm ⊢
  have herase : ∀ e ∈ m.erase a, e.1 < size := fun e he => hm.2 e (List.mem_filter.mp he).1
  unfold Mem.write
  split
  · exact ⟨Mem.risingFrom_erase a hm.1, herase⟩
  · rename_i hb
    refine ⟨Mem.risingFrom_insert hb (by omega) (Mem.risingFrom_erase a hm.1) (Mem.not_mem_erase m a), ?_⟩
    intro e he
    rcases Mem.mem_insert he with rfl | h
    · exact ha
    · exact herase e h

@[simp] theorem Mem.wf_nil (size : Nat) : Mem.wf size ([] : Mem w) = true := rfl

theorem Mem.read_eq_blank_of_lt {m : Mem w} {lo k : Nat} (hm : Mem.risingFrom lo m = true) (hk : k < lo) :
    m.read k = Mem.blank := by
  induction m generalizing lo with
  | nil => rfl
  | cons e m ih =>
    obtain ⟨i, c⟩ := e
    simp only [Mem.risingFrom, Bool.and_eq_true, decide_eq_true_eq] at hm
    have hik : i ≠ k := by omega
    simp only [Mem.read, hik, if_false]
    exact ih hm.2 (by omega)

/-- Two rising arrays that read the same are the same list. -/
theorem Mem.ext_risingFrom {m n : Mem w} {lo : Nat} (hm : Mem.risingFrom lo m = true)
    (hn : Mem.risingFrom lo n = true) (h : ∀ k, m.read k = n.read k) : m = n := by
  induction m generalizing lo n with
  | nil =>
    cases n with
    | nil => rfl
    | cons e n =>
      obtain ⟨i, c⟩ := e
      have hi := h i
      simp only [Mem.risingFrom, Bool.and_eq_true, bne_iff_ne] at hn
      simp only [Mem.read, if_true] at hi
      exact absurd hi.symm hn.1.2
  | cons e m ih =>
    obtain ⟨i, c⟩ := e
    cases n with
    | nil =>
      have hi := h i
      simp only [Mem.risingFrom, Bool.and_eq_true, bne_iff_ne] at hm
      simp only [Mem.read, if_true] at hi
      exact absurd hi hm.1.2
    | cons e' n =>
      obtain ⟨j, d⟩ := e'
      simp only [Mem.risingFrom, Bool.and_eq_true, decide_eq_true_eq, bne_iff_ne] at hm hn
      have hij : i = j := by
        rcases Nat.lt_trichotomy i j with hlt | heq | hgt
        · have h1 := h i
          have h2 : Mem.read n i = Mem.blank := Mem.read_eq_blank_of_lt hn.2 (by omega)
          have hne : j ≠ i := by omega
          simp only [Mem.read, if_true, hne, if_false, h2] at h1
          exact absurd h1 hm.1.2
        · exact heq
        · have h1 := h j
          have h2 : Mem.read m j = Mem.blank := Mem.read_eq_blank_of_lt hm.2 (by omega)
          have hne : i ≠ j := by omega
          simp only [Mem.read, if_true, hne, if_false, h2] at h1
          exact absurd h1.symm hn.1.2
      subst hij
      have hcd : c = d := by simpa [Mem.read] using h i
      subst hcd
      have hmn : m = n := by
        apply ih hm.2 hn.2
        intro k
        have hk := h k
        by_cases hik : i = k
        · subst hik
          rw [Mem.read_eq_blank_of_lt hm.2 (by omega), Mem.read_eq_blank_of_lt hn.2 (by omega)]
        · simpa [Mem.read, hik] using hk
      rw [hmn]

/-- Equal memories are equal data. -/
theorem Mem.ext {size : Nat} {m n : Mem w} (hm : m.wf size = true) (hn : n.wf size = true)
    (h : ∀ k, m.read k = n.read k) : m = n :=
  Mem.ext_risingFrom (Mem.wf_iff.mp hm).1 (Mem.wf_iff.mp hn).1 h

theorem Mem.risingFrom_ofListFrom (bs : List (BitVec w)) (k : Nat) :
    Mem.risingFrom k (Mem.ofListFrom k bs) = true := by
  induction bs generalizing k with
  | nil => rfl
  | cons b bs ih =>
    simp only [Mem.ofListFrom]
    split
    · exact Mem.risingFrom_mono (Nat.le_succ k) (ih (k + 1))
    · rename_i hb
      simp [Mem.risingFrom, hb, ih]

theorem Mem.lt_of_mem_ofListFrom {bs : List (BitVec w)} {k : Nat} {e : Nat × BitVec w}
    (he : e ∈ Mem.ofListFrom k bs) : e.1 < k + bs.length := by
  induction bs generalizing k with
  | nil => simp [Mem.ofListFrom] at he
  | cons b bs ih =>
    simp only [Mem.ofListFrom] at he
    split at he
    · have := ih he; simp; omega
    · rcases List.mem_cons.mp he with rfl | h
      · simp
      · have := ih h; simp; omega

/-- A constructed array is canonical. -/
theorem Mem.wf_ofList {size : Nat} {bs : List (BitVec w)} (h : bs.length ≤ size) :
    (Mem.ofList bs).wf size = true := by
  rw [Mem.wf_iff]
  refine ⟨Mem.risingFrom_ofListFrom bs 0, fun e he => ?_⟩
  have := Mem.lt_of_mem_ofListFrom he
  omega

theorem Mem.read_ofListFrom (bs : List (BitVec w)) (k j : Nat) :
    (Mem.ofListFrom k bs).read (k + j) = bs.getD j 0 := by
  induction bs generalizing k j with
  | nil => simp [Mem.ofListFrom]
  | cons b bs ih =>
    cases j with
    | zero =>
      simp only [Mem.ofListFrom]
      split
      · rename_i hb
        rw [Mem.read_eq_blank_of_lt (Mem.risingFrom_ofListFrom bs (k + 1)) (by omega), hb]
        simp
      · simp [Mem.read]
    | succ j =>
      have h1 : k + (j + 1) = (k + 1) + j := by omega
      have h2 : k ≠ k + (j + 1) := by omega
      simp only [Mem.ofListFrom]
      split
      · rw [h1, ih]; simp
      · simp only [Mem.read, h2, if_false]; rw [h1, ih]; simp

/-- A constructed array reads as the list it is built from. -/
theorem Mem.read_ofList (bs : List (BitVec w)) (j : Nat) : (Mem.ofList bs).read j = bs.getD j 0 := by
  have := Mem.read_ofListFrom bs 0 j
  simpa [Mem.ofList] using this

end Sys2Proof.Machine
end

