-- ==== Sys2Proof/Laws/State.lean ====
section
/-! SUPPORT. What each update of the machine does to each field, true by unfolding the update. -/

namespace Sys2Proof.Machine

variable (s : State)

/-! ## `State.setPc` -/

@[simp] theorem State.setPc_cpu_a (v : Word) : (s.setPc v).cpu.a = s.cpu.a := rfl
@[simp] theorem State.setPc_cpu_x (v : Word) : (s.setPc v).cpu.x = s.cpu.x := rfl
@[simp] theorem State.setPc_cpu_y (v : Word) : (s.setPc v).cpu.y = s.cpu.y := rfl
@[simp] theorem State.setPc_cpu_sp (v : Word) : (s.setPc v).cpu.sp = s.cpu.sp := rfl
@[simp] theorem State.setPc_cpu_pc (v : Word) : (s.setPc v).cpu.pc = v := rfl
@[simp] theorem State.setPc_cpu_p (v : Word) : (s.setPc v).cpu.p = s.cpu.p := rfl
@[simp] theorem State.setPc_cpu_cycles (v : Word) : (s.setPc v).cpu.cycles = s.cpu.cycles := rfl
@[simp] theorem State.setPc_cpu_adr (v : Word) : (s.setPc v).cpu.adr = s.cpu.adr := rfl
@[simp] theorem State.setPc_bus (v : Word) : (s.setPc v).bus = s.bus := rfl
@[simp] theorem State.setPc_ppu (v : Word) : (s.setPc v).ppu = s.ppu := rfl
@[simp] theorem State.setPc_cart (v : Word) : (s.setPc v).cart = s.cart := rfl
@[simp] theorem State.setPc_params (v : Word) : (s.setPc v).params = s.params := rfl

/-! ## `State.setAdr` -/

@[simp] theorem State.setAdr_cpu_a (v : Word) : (s.setAdr v).cpu.a = s.cpu.a := rfl
@[simp] theorem State.setAdr_cpu_x (v : Word) : (s.setAdr v).cpu.x = s.cpu.x := rfl
@[simp] theorem State.setAdr_cpu_y (v : Word) : (s.setAdr v).cpu.y = s.cpu.y := rfl
@[simp] theorem State.setAdr_cpu_sp (v : Word) : (s.setAdr v).cpu.sp = s.cpu.sp := rfl
@[simp] theorem State.setAdr_cpu_pc (v : Word) : (s.setAdr v).cpu.pc = s.cpu.pc := rfl
@[simp] theorem State.setAdr_cpu_p (v : Word) : (s.setAdr v).cpu.p = s.cpu.p := rfl
@[simp] theorem State.setAdr_cpu_cycles (v : Word) : (s.setAdr v).cpu.cycles = s.cpu.cycles := rfl
@[simp] theorem State.setAdr_cpu_adr (v : Word) : (s.setAdr v).cpu.adr = v := rfl
@[simp] theorem State.setAdr_bus (v : Word) : (s.setAdr v).bus = s.bus := rfl
@[simp] theorem State.setAdr_ppu (v : Word) : (s.setAdr v).ppu = s.ppu := rfl
@[simp] theorem State.setAdr_cart (v : Word) : (s.setAdr v).cart = s.cart := rfl
@[simp] theorem State.setAdr_params (v : Word) : (s.setAdr v).params = s.params := rfl

/-! ## `State.setSp` -/

@[simp] theorem State.setSp_cpu_a (v : Byte) : (s.setSp v).cpu.a = s.cpu.a := rfl
@[simp] theorem State.setSp_cpu_x (v : Byte) : (s.setSp v).cpu.x = s.cpu.x := rfl
@[simp] theorem State.setSp_cpu_y (v : Byte) : (s.setSp v).cpu.y = s.cpu.y := rfl
@[simp] theorem State.setSp_cpu_sp (v : Byte) : (s.setSp v).cpu.sp = v := rfl
@[simp] theorem State.setSp_cpu_pc (v : Byte) : (s.setSp v).cpu.pc = s.cpu.pc := rfl
@[simp] theorem State.setSp_cpu_p (v : Byte) : (s.setSp v).cpu.p = s.cpu.p := rfl
@[simp] theorem State.setSp_cpu_cycles (v : Byte) : (s.setSp v).cpu.cycles = s.cpu.cycles := rfl
@[simp] theorem State.setSp_cpu_adr (v : Byte) : (s.setSp v).cpu.adr = s.cpu.adr := rfl
@[simp] theorem State.setSp_bus (v : Byte) : (s.setSp v).bus = s.bus := rfl
@[simp] theorem State.setSp_ppu (v : Byte) : (s.setSp v).ppu = s.ppu := rfl
@[simp] theorem State.setSp_cart (v : Byte) : (s.setSp v).cart = s.cart := rfl
@[simp] theorem State.setSp_params (v : Byte) : (s.setSp v).params = s.params := rfl

/-! ## `State.setP` -/

@[simp] theorem State.setP_cpu_a (v : Byte) : (s.setP v).cpu.a = s.cpu.a := rfl
@[simp] theorem State.setP_cpu_x (v : Byte) : (s.setP v).cpu.x = s.cpu.x := rfl
@[simp] theorem State.setP_cpu_y (v : Byte) : (s.setP v).cpu.y = s.cpu.y := rfl
@[simp] theorem State.setP_cpu_sp (v : Byte) : (s.setP v).cpu.sp = s.cpu.sp := rfl
@[simp] theorem State.setP_cpu_pc (v : Byte) : (s.setP v).cpu.pc = s.cpu.pc := rfl
@[simp] theorem State.setP_cpu_p (v : Byte) : (s.setP v).cpu.p = v := rfl
@[simp] theorem State.setP_cpu_cycles (v : Byte) : (s.setP v).cpu.cycles = s.cpu.cycles := rfl
@[simp] theorem State.setP_cpu_adr (v : Byte) : (s.setP v).cpu.adr = s.cpu.adr := rfl
@[simp] theorem State.setP_bus (v : Byte) : (s.setP v).bus = s.bus := rfl
@[simp] theorem State.setP_ppu (v : Byte) : (s.setP v).ppu = s.ppu := rfl
@[simp] theorem State.setP_cart (v : Byte) : (s.setP v).cart = s.cart := rfl
@[simp] theorem State.setP_params (v : Byte) : (s.setP v).params = s.params := rfl

/-! ## `State.setCycles` -/

@[simp] theorem State.setCycles_cpu_a (v : Nat) : (s.setCycles v).cpu.a = s.cpu.a := rfl
@[simp] theorem State.setCycles_cpu_x (v : Nat) : (s.setCycles v).cpu.x = s.cpu.x := rfl
@[simp] theorem State.setCycles_cpu_y (v : Nat) : (s.setCycles v).cpu.y = s.cpu.y := rfl
@[simp] theorem State.setCycles_cpu_sp (v : Nat) : (s.setCycles v).cpu.sp = s.cpu.sp := rfl
@[simp] theorem State.setCycles_cpu_pc (v : Nat) : (s.setCycles v).cpu.pc = s.cpu.pc := rfl
@[simp] theorem State.setCycles_cpu_p (v : Nat) : (s.setCycles v).cpu.p = s.cpu.p := rfl
@[simp] theorem State.setCycles_cpu_cycles (v : Nat) : (s.setCycles v).cpu.cycles = v := rfl
@[simp] theorem State.setCycles_cpu_adr (v : Nat) : (s.setCycles v).cpu.adr = s.cpu.adr := rfl
@[simp] theorem State.setCycles_bus (v : Nat) : (s.setCycles v).bus = s.bus := rfl
@[simp] theorem State.setCycles_ppu (v : Nat) : (s.setCycles v).ppu = s.ppu := rfl
@[simp] theorem State.setCycles_cart (v : Nat) : (s.setCycles v).cart = s.cart := rfl
@[simp] theorem State.setCycles_params (v : Nat) : (s.setCycles v).params = s.params := rfl

/-! ## `State.addCycles` -/

@[simp] theorem State.addCycles_cpu_a (v : Nat) : (s.addCycles v).cpu.a = s.cpu.a := rfl
@[simp] theorem State.addCycles_cpu_x (v : Nat) : (s.addCycles v).cpu.x = s.cpu.x := rfl
@[simp] theorem State.addCycles_cpu_y (v : Nat) : (s.addCycles v).cpu.y = s.cpu.y := rfl
@[simp] theorem State.addCycles_cpu_sp (v : Nat) : (s.addCycles v).cpu.sp = s.cpu.sp := rfl
@[simp] theorem State.addCycles_cpu_pc (v : Nat) : (s.addCycles v).cpu.pc = s.cpu.pc := rfl
@[simp] theorem State.addCycles_cpu_p (v : Nat) : (s.addCycles v).cpu.p = s.cpu.p := rfl
@[simp] theorem State.addCycles_cpu_cycles (v : Nat) : (s.addCycles v).cpu.cycles = s.cpu.cycles + v := rfl
@[simp] theorem State.addCycles_cpu_adr (v : Nat) : (s.addCycles v).cpu.adr = s.cpu.adr := rfl
@[simp] theorem State.addCycles_bus (v : Nat) : (s.addCycles v).bus = s.bus := rfl
@[simp] theorem State.addCycles_ppu (v : Nat) : (s.addCycles v).ppu = s.ppu := rfl
@[simp] theorem State.addCycles_cart (v : Nat) : (s.addCycles v).cart = s.cart := rfl
@[simp] theorem State.addCycles_params (v : Nat) : (s.addCycles v).params = s.params := rfl

/-! ## `State.mapCpu` and `State.mapBus` -/

@[simp] theorem State.mapCpu_cpu (f : Cpu → Cpu) : (s.mapCpu f).cpu = f s.cpu := rfl
@[simp] theorem State.mapCpu_bus (f : Cpu → Cpu) : (s.mapCpu f).bus = s.bus := rfl
@[simp] theorem State.mapCpu_ppu (f : Cpu → Cpu) : (s.mapCpu f).ppu = s.ppu := rfl
@[simp] theorem State.mapCpu_cart (f : Cpu → Cpu) : (s.mapCpu f).cart = s.cart := rfl
@[simp] theorem State.mapCpu_params (f : Cpu → Cpu) : (s.mapCpu f).params = s.params := rfl
@[simp] theorem State.mapBus_bus (f : Bus → Bus) : (s.mapBus f).bus = f s.bus := rfl
@[simp] theorem State.mapBus_cpu (f : Bus → Bus) : (s.mapBus f).cpu = s.cpu := rfl
@[simp] theorem State.mapBus_ppu (f : Bus → Bus) : (s.mapBus f).ppu = s.ppu := rfl
@[simp] theorem State.mapBus_cart (f : Bus → Bus) : (s.mapBus f).cart = s.cart := rfl
@[simp] theorem State.mapBus_params (f : Bus → Bus) : (s.mapBus f).params = s.params := rfl

/-! ## Updates one after another -/

@[simp] theorem State.setPc_setPc (v w : Word) : (s.setPc v).setPc w = s.setPc w := rfl
@[simp] theorem State.setAdr_setAdr (v w : Word) : (s.setAdr v).setAdr w = s.setAdr w := rfl
@[simp] theorem State.setSp_setSp (v w : Byte) : (s.setSp v).setSp w = s.setSp w := rfl
@[simp] theorem State.setP_setP (v w : Byte) : (s.setP v).setP w = s.setP w := rfl
@[simp] theorem State.setCycles_setCycles (v w : Nat) : (s.setCycles v).setCycles w = s.setCycles w := rfl
theorem State.addCycles_eq_setCycles (n : Nat) : s.addCycles n = s.setCycles (s.cpu.cycles + n) := rfl
@[simp] theorem State.addCycles_setCycles (n m : Nat) : (s.setCycles n).addCycles m = s.setCycles (n + m) := rfl
theorem State.setCycles_mapBus (n : Nat) (f : Bus → Bus) : (s.mapBus f).setCycles n = (s.setCycles n).mapBus f := rfl
@[simp] theorem State.setAdr_self : s.setAdr s.cpu.adr = s := rfl
@[simp] theorem State.setP_self : s.setP s.cpu.p = s := rfl
@[simp] theorem State.setPc_self : s.setPc s.cpu.pc = s := rfl
@[simp] theorem State.setSp_self : s.setSp s.cpu.sp = s := rfl
@[simp] theorem State.setCycles_self : s.setCycles s.cpu.cycles = s := rfl

end Sys2Proof.Machine
end

