-- ==== Sys2Proof/Laws/Bus.lean ====
section
/-! SUPPORT. What one bus access can do: where it faults, what it answers, and what it leaves unchanged. -/

namespace Sys2Proof.Machine

/-! ## Outcomes in sequence -/

variable {α β γ : Type}

@[simp] theorem andThen_next (a : α) (f : α → Res β) : andThen (.next a) f = f a := rfl
@[simp] theorem andThen_fault (e : Fault) (f : α → Res β) : andThen (.fault e) f = .fault e := rfl
@[simp] theorem andThen_refused (e : Refusal) (f : α → Res β) : andThen (.refused e) f = .refused e := rfl

@[simp] theorem andThen_pure (r : Res α) : andThen r (fun a => .next a) = r := by cases r <;> rfl

theorem andThen_assoc (r : Res α) (f : α → Res β) (g : β → Res γ) :
    andThen (andThen r f) g = andThen r fun a => andThen (f a) g := by cases r <;> rfl

/-- A sequence that answers a next state answered one at each part. -/
theorem andThen_eq_next {r : Res α} {f : α → Res β} {b : β} :
    andThen r f = .next b ↔ ∃ a, r = .next a ∧ f a = .next b := by
  cases r <;> simp

theorem andThen_eq_fault {r : Res α} {f : α → Res β} {e : Fault} :
    andThen r f = .fault e ↔ r = .fault e ∨ ∃ a, r = .next a ∧ f a = .fault e := by
  cases r <;> simp

theorem andThen_eq_refused {r : Res α} {f : α → Res β} {e : Refusal} :
    andThen r f = .refused e ↔ r = .refused e ∨ ∃ a, r = .next a ∧ f a = .refused e := by
  cases r <;> simp

/-! ## What the mapper claims -/

variable (ps : Params) (c : Cart) (a : Word) (s : State) (d : Byte)

theorem blocked_nrom (h : c.mapper = .nrom) : Blocked c a = false := by simp [Blocked, h]

theorem blocked_iff : Blocked c a = true ↔ c.mapper ≠ .nrom ∧ 0x6000 ≤ a.toNat ∧ a.toNat < 0x8000 := by
  unfold Blocked
  cases c.mapper <;> simp

theorem blocked_of_low (h : a.toNat < 0x6000) : Blocked c a = false := by
  rw [Bool.eq_false_iff, ne_eq, blocked_iff]
  omega

theorem blocked_of_high (h : 0x8000 ≤ a.toNat) : Blocked c a = false := by
  rw [Bool.eq_false_iff, ne_eq, blocked_iff]
  omega

/-- The mapper faults exactly in the window, claims exactly the addresses from 0x8000 up, and declines the rest. -/
theorem mapCpuRead_cases :
    (Blocked c a = true ∧ mapCpuRead ps c a = .fault) ∨
    (Blocked c a = false ∧ a.toNat < 0x8000 ∧ mapCpuRead ps c a = .none) ∨
    (Blocked c a = false ∧ 0x8000 ≤ a.toNat ∧ ∃ off, mapCpuRead ps c a = .offset off) := by
  unfold Blocked mapCpuRead
  cases c.mapper with
  | nrom =>
    simp only [nromCpuRead]
    by_cases h : a.toNat < 0x8000
    · simp [h]
    · simp [h, Nat.le_of_not_lt h]
  | mmc1 r =>
    simp only [mmc1CpuRead]
    by_cases h6 : a.toNat < 0x6000
    · have h1 : ¬ 0x6000 ≤ a.toNat := by omega
      have h2 : a.toNat < 0x8000 := by omega
      simp [h6, h1, h2]
    · by_cases h8 : a.toNat < 0x8000
      · have h1 : 0x6000 ≤ a.toNat := by omega
        simp [h6, h8, h1]
      · have h1 : 0x8000 ≤ a.toNat := by omega
        refine .inr (.inr ⟨by simp [h8], h1, ?_⟩)
        simp only [h6, h8, if_false]
        split
        · exact ⟨_, rfl⟩
        · split
          · split <;> exact ⟨_, rfl⟩
          · split <;> exact ⟨_, rfl⟩

theorem mapCpuRead_low (h : a.toNat < 0x6000) : mapCpuRead ps c a = .none := by
  have hb := blocked_of_low c a h
  rcases mapCpuRead_cases ps c a with ⟨h1, -⟩ | ⟨-, -, h1⟩ | ⟨-, h1, -⟩
  · simp [hb] at h1
  · exact h1
  · omega

theorem cartCpuWrite_cases :
    (Blocked c a = true ∧ cartCpuWrite c a d = .fault) ∨
    (Blocked c a = false ∧ cartCpuWrite c a d = .none ∧ (0x8000 ≤ a.toNat → c.mapper = .nrom)) ∨
    (Blocked c a = false ∧ 0x8000 ≤ a.toNat ∧
      ∃ r, c.mapper = .mmc1 r ∧ cartCpuWrite c a d = .claimed { c with mapper := .mmc1 (mmc1Serial r a d) }) := by
  unfold Blocked cartCpuWrite
  cases c.mapper with
  | nrom => simp
  | mmc1 r =>
    by_cases h6 : a.toNat < 0x6000
    · have h1 : ¬ 0x6000 ≤ a.toNat := by omega
      have h2 : ¬ 0x8000 ≤ a.toNat := by omega
      simp [h6, h1, h2]
    · by_cases h8 : a.toNat < 0x8000
      · have h1 : 0x6000 ≤ a.toNat := by omega
        simp [h6, h8, h1]
      · simp [h6, h8, Nat.le_of_not_lt h8]

/-! ## Reading -/

theorem busRead_blocked (h : Blocked s.cart a = true) : busRead a s = .fault (.unimplemented a) := by
  unfold busRead
  rcases mapCpuRead_cases s.params s.cart a with ⟨-, h1⟩ | ⟨h1, -, -⟩ | ⟨h1, -⟩
  · rw [h1]
  · simp [h] at h1
  · simp [h] at h1

/-- The reads of the Bus's own decode, one by address range (R231). -/
theorem busRead_ram (h : a.toNat ≤ 0x1FFF) : busRead a s = .next (s.bus.ram.read (a.toNat % 0x800), s) := by
  rw [busRead, mapCpuRead_low _ _ _ (by omega)]
  simp [h]

theorem busRead_ppu (h1 : 0x2000 ≤ a.toNat) (h2 : a.toNat ≤ 0x3FFF) :
    busRead a s =
      .next ((ppuRegRead (a.setWidth 3) s.ppu s.cart).1, { s with ppu := (ppuRegRead (a.setWidth 3) s.ppu s.cart).2 }) := by
  rw [busRead, mapCpuRead_low _ _ _ (by omega)]
  have h3 : ¬ a.toNat ≤ 0x1FFF := by omega
  simp [h3, h2]

theorem busRead_ctrl : busRead 0x4016 s = .next ((ctrlRead s.bus).1, { s with bus := (ctrlRead s.bus).2 }) := by
  rw [busRead, mapCpuRead_low _ _ _ (by decide)]
  rfl

theorem busRead_prg (h : 0x8000 ≤ a.toNat) :
    ∃ off, mapCpuRead s.params s.cart a = .offset off ∧
      busRead a s = .next (s.cart.prg.read (s.cart.prgIndex off), s) := by
  rcases mapCpuRead_cases s.params s.cart a with ⟨h1, -⟩ | ⟨-, h1, -⟩ | ⟨-, -, off, h1⟩
  · rw [blocked_of_high _ _ h] at h1; simp at h1
  · omega
  · exact ⟨off, h1, by rw [busRead, h1]⟩

/-- A read outside the devices either faults or leaves the machine as it was. -/
theorem busRead_plain (h : IsDevice a = false) (hb : Blocked s.cart a = false) : ∃ b, busRead a s = .next (b, s) := by
  unfold busRead
  rcases mapCpuRead_cases s.params s.cart a with ⟨h1, -⟩ | ⟨-, -, h1⟩ | ⟨-, -, off, h1⟩
  · rw [hb] at h1; simp at h1
  · rw [h1]
    simp only [IsDevice, Bool.or_eq_false_iff, Bool.and_eq_false_iff, decide_eq_false_iff_not, beq_eq_false_iff_ne] at h
    by_cases h1 : a.toNat ≤ 0x1FFF
    · simp only [h1, if_true]; exact ⟨_, rfl⟩
    · have h2 : ¬ a.toNat ≤ 0x3FFF := by omega
      simp only [h1, h2, h.2, if_false]
      split <;> exact ⟨_, rfl⟩
  · rw [h1]; exact ⟨_, rfl⟩

/-- A read outside the window answers a byte. -/
theorem busRead_open (h : Blocked s.cart a = false) : busRead a s = .next (readByte a s, afterRead a s) := by
  have key : ∃ r, busRead a s = .next r := by
    unfold busRead
    rcases mapCpuRead_cases s.params s.cart a with ⟨h1, -⟩ | ⟨-, -, h1⟩ | ⟨-, -, off, h1⟩
    · rw [h] at h1; simp at h1
    · rw [h1]
      dsimp only
      split
      · exact ⟨_, rfl⟩
      · split
        · exact ⟨_, rfl⟩
        · split
          · exact ⟨_, rfl⟩
          · split <;> exact ⟨_, rfl⟩
    · rw [h1]; exact ⟨_, rfl⟩
  obtain ⟨r, hr⟩ := key
  simp [readByte, afterRead, hr]

theorem busRead_eq_next {r : Byte × State} (h : busRead a s = .next r) :
    Blocked s.cart a = false ∧ r = (readByte a s, afterRead a s) := by
  have hb : Blocked s.cart a = false := by
    rcases Bool.eq_false_or_eq_true (Blocked s.cart a) with hb | hb
    · rw [busRead_blocked _ _ hb] at h; simp at h
    · exact hb
  refine ⟨hb, ?_⟩
  rw [busRead_open _ _ hb] at h
  simpa using h.symm

theorem readByte_blocked (h : Blocked s.cart a = true) : readByte a s = 0 := by
  simp [readByte, busRead_blocked _ _ h]

theorem afterRead_blocked (h : Blocked s.cart a = true) : afterRead a s = s := by
  simp [afterRead, busRead_blocked _ _ h]

theorem afterRead_plain (h : IsDevice a = false) : afterRead a s = s := by
  rcases Bool.eq_false_or_eq_true (Blocked s.cart a) with hb | hb
  · exact afterRead_blocked a s hb
  · obtain ⟨b, hr⟩ := busRead_plain a s h hb
    simp [afterRead, hr]

theorem readByte_ram (h : a.toNat ≤ 0x1FFF) : readByte a s = s.bus.ram.read (a.toNat % 0x800) := by
  simp [readByte, busRead_ram a s h]

theorem afterRead_ram (h : a.toNat ≤ 0x1FFF) : afterRead a s = s := by
  simp [afterRead, busRead_ram a s h]

/-- The fields of the PPU that no CPU read changes (R266, R268, R272). -/
theorem ppuRegRead_frame (r : BitVec 3) (p : Ppu) :
    (ppuRegRead r p c).2 =
      { p with
        vblank := (ppuRegRead r p c).2.vblank
        w := (ppuRegRead r p c).2.w
        dataBuffer := (ppuRegRead r p c).2.dataBuffer
        v := (ppuRegRead r p c).2.v } := by
  unfold ppuRegRead
  split <;> rfl

/-- The fields of the Bus that a controller read changes (R241). -/
theorem ctrlRead_frame (b : Bus) : (ctrlRead b).2 = { b with ctrlShift := (ctrlRead b).2.ctrlShift } := by
  unfold ctrlRead
  cases h : b.ctrlStrobe <;> simp [h]

/-- What a read can change: four fields of the PPU and the controller's shift register (R65). -/
theorem afterRead_frame :
    afterRead a s =
      { s with
        ppu :=
          { s.ppu with
            vblank := (afterRead a s).ppu.vblank
            w := (afterRead a s).ppu.w
            dataBuffer := (afterRead a s).ppu.dataBuffer
            v := (afterRead a s).ppu.v }
        bus := { s.bus with ctrlShift := (afterRead a s).bus.ctrlShift } } := by
  rcases Bool.eq_false_or_eq_true (IsDevice a) with hd | hd
  · by_cases h1 : 0x2000 ≤ a.toNat ∧ a.toNat ≤ 0x3FFF
    · have h2 := ppuRegRead_frame s.cart (a.setWidth 3) s.ppu
      have h3 : afterRead a s = { s with ppu := (ppuRegRead (a.setWidth 3) s.ppu s.cart).2 } := by
        simp [afterRead, busRead_ppu a s h1.1 h1.2]
      rw [h3, h2]
    · by_cases h2 : a = 0x4016
      · subst h2
        have h3 : afterRead 0x4016 s = { s with bus := (ctrlRead s.bus).2 } := by
          simp only [afterRead, busRead_ctrl]
        rw [h3, ctrlRead_frame s.bus]
      · have h3 : a = 0x4014 := by
          simp only [IsDevice, Bool.or_eq_true, Bool.and_eq_true, decide_eq_true_eq, beq_iff_eq] at hd
          tauto
        subst h3
        have h4 : afterRead 0x4014 s = s := by
          simp only [afterRead, busRead, mapCpuRead_low s.params s.cart 0x4014 (by decide)]
          rfl
        rw [h4]
  · rw [afterRead_plain a s hd]

@[simp] theorem afterRead_cpu : (afterRead a s).cpu = s.cpu := by rw [afterRead_frame]
@[simp] theorem afterRead_cart : (afterRead a s).cart = s.cart := by rw [afterRead_frame]
@[simp] theorem afterRead_params : (afterRead a s).params = s.params := by rw [afterRead_frame]
@[simp] theorem afterRead_ram_field : (afterRead a s).bus.ram = s.bus.ram := by rw [afterRead_frame]
@[simp] theorem afterRead_cartRam : (afterRead a s).bus.cartRam = s.bus.cartRam := by rw [afterRead_frame]
@[simp] theorem afterRead_master : (afterRead a s).bus.master = s.bus.master := by rw [afterRead_frame]
@[simp] theorem afterRead_oam : (afterRead a s).ppu.oam = s.ppu.oam := by rw [afterRead_frame]
@[simp] theorem afterRead_nt : (afterRead a s).ppu.nt = s.ppu.nt := by rw [afterRead_frame]
@[simp] theorem afterRead_pal : (afterRead a s).ppu.pal = s.ppu.pal := by rw [afterRead_frame]
@[simp] theorem afterRead_framebuffer : (afterRead a s).ppu.framebuffer = s.ppu.framebuffer := by rw [afterRead_frame]
@[simp] theorem afterRead_nmiOut : (afterRead a s).ppu.nmiOut = s.ppu.nmiOut := by rw [afterRead_frame]

/-- A read does not look at the CPU. -/
theorem busRead_mapCpu (f : Cpu → Cpu) :
    busRead a (s.mapCpu f) = andThen (busRead a s) fun r => .next (r.1, r.2.mapCpu f) := by
  unfold busRead
  simp only [State.mapCpu]
  split <;> try rfl
  split
  · rfl
  · split
    · rfl
    · split
      · rfl
      · split <;> rfl

@[simp] theorem readByte_mapCpu (f : Cpu → Cpu) : readByte a (s.mapCpu f) = readByte a s := by
  unfold readByte
  rw [busRead_mapCpu]
  cases busRead a s <;> rfl

@[simp] theorem afterRead_mapCpu (f : Cpu → Cpu) : afterRead a (s.mapCpu f) = (afterRead a s).mapCpu f := by
  unfold afterRead
  rw [busRead_mapCpu]
  cases busRead a s <;> rfl

@[simp] theorem readByte_setPc (v : Word) : readByte a (s.setPc v) = readByte a s := readByte_mapCpu a s _
@[simp] theorem readByte_setAdr (v : Word) : readByte a (s.setAdr v) = readByte a s := readByte_mapCpu a s _
@[simp] theorem readByte_setSp (v : Byte) : readByte a (s.setSp v) = readByte a s := readByte_mapCpu a s _
@[simp] theorem readByte_setP (v : Byte) : readByte a (s.setP v) = readByte a s := readByte_mapCpu a s _
@[simp] theorem readByte_setCycles (n : Nat) : readByte a (s.setCycles n) = readByte a s := readByte_mapCpu a s _
@[simp] theorem afterRead_setPc (v : Word) : afterRead a (s.setPc v) = (afterRead a s).setPc v := afterRead_mapCpu a s _
@[simp] theorem afterRead_setAdr (v : Word) : afterRead a (s.setAdr v) = (afterRead a s).setAdr v := afterRead_mapCpu a s _
@[simp] theorem afterRead_setCycles (n : Nat) : afterRead a (s.setCycles n) = (afterRead a s).setCycles n :=
  afterRead_mapCpu a s _

/-- Two machines with the same storage, cartridge and parameters read the same outside the devices. -/
theorem readByte_congr {s t : State} (hd : IsDevice a = false) (hr : t.bus.ram = s.bus.ram)
    (hc : t.bus.cartRam = s.bus.cartRam) (hk : t.cart = s.cart) (hp : t.params = s.params) :
    readByte a t = readByte a s := by
  simp only [IsDevice, Bool.or_eq_false_iff, Bool.and_eq_false_iff, decide_eq_false_iff_not, beq_eq_false_iff_ne] at hd
  unfold readByte busRead
  rw [hk, hp]
  rcases mapCpuRead_cases s.params s.cart a with ⟨-, h1⟩ | ⟨-, -, h1⟩ | ⟨-, -, off, h1⟩
  · rw [h1]
  · rw [h1]
    by_cases h2 : a.toNat ≤ 0x1FFF
    · simp [h2, hr]
    · have h3 : ¬ a.toNat ≤ 0x3FFF := by omega
      simp only [h2, h3, hd.2, if_false, hc]
      by_cases h4 : 0x6000 ≤ a.toNat ∧ a.toNat ≤ 0x7FFF <;> simp [h4]
  · rw [h1]

/-! ## Writing -/

theorem busWrite_blocked (h : Blocked s.cart a = true) : busWrite a d s = .fault (.unimplemented a) := by
  unfold busWrite
  rcases cartCpuWrite_cases s.cart a d with ⟨-, h1⟩ | ⟨h1, -, -⟩ | ⟨h1, -⟩
  · rw [h1]
  · simp [h] at h1
  · simp [h] at h1

theorem cartCpuWrite_low (h : a.toNat < 0x6000) : cartCpuWrite c a d = .none := by
  have hb := blocked_of_low c a h
  rcases cartCpuWrite_cases c a d with ⟨h1, -⟩ | ⟨-, h1, -⟩ | ⟨-, h1, -⟩
  · simp [hb] at h1
  · exact h1
  · omega

theorem busWrite_ram (h : a.toNat ≤ 0x1FFF) :
    busWrite a d s = .next (s.mapBus fun b => { b with ram := b.ram.write (a.toNat % 0x800) d }) := by
  rw [busWrite, cartCpuWrite_low _ _ _ (by omega)]
  simp [h]

theorem busWrite_ppu (h1 : 0x2000 ≤ a.toNat) (h2 : a.toNat ≤ 0x3FFF) :
    busWrite a d s =
      .next { s with
        ppu := (ppuRegWrite (a.setWidth 3) d s.ppu s.cart).1, cart := (ppuRegWrite (a.setWidth 3) d s.ppu s.cart).2 } := by
  rw [busWrite, cartCpuWrite_low _ _ _ (by omega)]
  have h3 : ¬ a.toNat ≤ 0x1FFF := by omega
  simp [h3, h2]

theorem busWrite_dma :
    busWrite 0x4014 d s =
      .next { s with ppu := oamDma d s.bus.ram s.ppu, bus := { s.bus with dmaMark := true } } := by
  rw [busWrite, cartCpuWrite_low _ _ _ (by decide)]
  rfl

theorem busWrite_ctrl : busWrite 0x4016 d s = .next (s.mapBus (ctrlWrite d)) := by
  rw [busWrite, cartCpuWrite_low _ _ _ (by decide)]
  rfl

/-- Everything a write can do, by address (R232). -/
theorem busWrite_cases :
    (Blocked s.cart a = true ∧ busWrite a d s = .fault (.unimplemented a)) ∨
    (a.toNat ≤ 0x1FFF ∧
      busWrite a d s = .next (s.mapBus fun b => { b with ram := b.ram.write (a.toNat % 0x800) d })) ∨
    (0x2000 ≤ a.toNat ∧ a.toNat ≤ 0x3FFF ∧
      busWrite a d s =
        .next { s with
          ppu := (ppuRegWrite (a.setWidth 3) d s.ppu s.cart).1
          cart := (ppuRegWrite (a.setWidth 3) d s.ppu s.cart).2 }) ∨
    (a = 0x4014 ∧
      busWrite a d s = .next { s with ppu := oamDma d s.bus.ram s.ppu, bus := { s.bus with dmaMark := true } }) ∨
    (a = 0x4016 ∧ busWrite a d s = .next (s.mapBus (ctrlWrite d))) ∨
    (0x6000 ≤ a.toNat ∧ a.toNat ≤ 0x7FFF ∧ s.cart.mapper = .nrom ∧
      busWrite a d s = .next (s.mapBus fun b => { b with cartRam := b.cartRam.write (a.toNat % 0x2000) d })) ∨
    (0x8000 ≤ a.toNat ∧ ∃ r, s.cart.mapper = .mmc1 r ∧
      busWrite a d s = .next { s with cart := { s.cart with mapper := .mmc1 (mmc1Serial r a d) } }) ∨
    (0x4000 ≤ a.toNat ∧ a ≠ 0x4014 ∧ a ≠ 0x4016 ∧ (a.toNat < 0x6000 ∨ 0x8000 ≤ a.toNat ∧ s.cart.mapper = .nrom) ∧
      busWrite a d s = .next s) := by
  rcases Bool.eq_false_or_eq_true (Blocked s.cart a) with hb | hb
  · exact .inl ⟨hb, busWrite_blocked a s d hb⟩
  by_cases h1 : a.toNat ≤ 0x1FFF
  · exact .inr (.inl ⟨h1, busWrite_ram a s d h1⟩)
  by_cases h2 : a.toNat ≤ 0x3FFF
  · exact .inr (.inr (.inl ⟨by omega, h2, busWrite_ppu a s d (by omega) h2⟩))
  by_cases h3 : a = 0x4014
  · exact .inr (.inr (.inr (.inl ⟨h3, h3 ▸ busWrite_dma s d⟩)))
  by_cases h4 : a = 0x4016
  · exact .inr (.inr (.inr (.inr (.inl ⟨h4, h4 ▸ busWrite_ctrl s d⟩))))
  rcases cartCpuWrite_cases s.cart a d with ⟨h5, -⟩ | ⟨-, h5, h6⟩ | ⟨-, h5, r, h6, h7⟩
  · rw [hb] at h5; simp at h5
  · by_cases h7 : 0x6000 ≤ a.toNat ∧ a.toNat ≤ 0x7FFF
    · refine .inr (.inr (.inr (.inr (.inr (.inl ⟨h7.1, h7.2, ?_, ?_⟩)))))
      · unfold Blocked at hb
        cases hm : s.cart.mapper with
        | nrom => rfl
        | mmc1 r => simp only [hm, Bool.and_eq_false_iff, decide_eq_false_iff_not] at hb; omega
      · simp only [busWrite, h5, h1, h2, h3, h4, h7, if_false, if_true, and_self]
    · refine .inr (.inr (.inr (.inr (.inr (.inr (.inr ⟨by omega, h3, h4, ?_, ?_⟩))))))
      · by_cases h8 : a.toNat < 0x6000
        · exact .inl h8
        · exact .inr ⟨by omega, h6 (by omega)⟩
      · simp only [busWrite, h5, h1, h2, h3, h4, h7, if_false]
  · exact .inr (.inr (.inr (.inr (.inr (.inr (.inl ⟨h5, r, h6, by simp [busWrite, h7]⟩))))))

/-- A write outside the window completes. -/
theorem busWrite_open (h : Blocked s.cart a = false) : busWrite a d s = .next (afterWrite a d s) := by
  have key : ∃ t, busWrite a d s = .next t := by
    rcases busWrite_cases a s d with ⟨h1, -⟩ | ⟨-, h1⟩ | ⟨-, -, h1⟩ | ⟨-, h1⟩ | ⟨-, h1⟩ | ⟨-, -, -, h1⟩ | ⟨-, r, -, h1⟩ |
      ⟨-, -, -, -, h1⟩
    · rw [h] at h1; simp at h1
    all_goals exact ⟨_, h1⟩
  obtain ⟨t, ht⟩ := key
  simp [afterWrite, ht]

theorem busWrite_eq_next {t : State} (h : busWrite a d s = .next t) :
    Blocked s.cart a = false ∧ t = afterWrite a d s := by
  have hb : Blocked s.cart a = false := by
    rcases Bool.eq_false_or_eq_true (Blocked s.cart a) with hb | hb
    · rw [busWrite_blocked _ _ _ hb] at h; simp at h
    · exact hb
  refine ⟨hb, ?_⟩
  rw [busWrite_open _ _ _ hb] at h
  simpa using h.symm

/-- A write does not look at the CPU. -/
theorem busWrite_mapCpu (f : Cpu → Cpu) :
    busWrite a d (s.mapCpu f) = andThen (busWrite a d s) fun t => .next (t.mapCpu f) := by
  unfold busWrite
  simp only [State.mapCpu]
  split <;> try rfl
  split
  · rfl
  · split
    · rfl
    · split
      · rfl
      · split
        · rfl
        · split <;> rfl

@[simp] theorem afterWrite_mapCpu (f : Cpu → Cpu) : afterWrite a d (s.mapCpu f) = (afterWrite a d s).mapCpu f := by
  unfold afterWrite
  rw [busWrite_mapCpu]
  cases busWrite a d s <;> rfl

@[simp] theorem afterWrite_setAdr (v : Word) : afterWrite a d (s.setAdr v) = (afterWrite a d s).setAdr v :=
  afterWrite_mapCpu a s d _
@[simp] theorem afterWrite_setCycles (n : Nat) : afterWrite a d (s.setCycles n) = (afterWrite a d s).setCycles n :=
  afterWrite_mapCpu a s d _

/-- The PPU address space's writes leave all of the cartridge but CHR RAM alone. -/
theorem ppuWrite_cart (p : Ppu) (x : PpuAddr) :
    (ppuWrite c p x d).2 = { c with chr := (ppuWrite c p x d).2.chr } ∧
      (c.chrBanks ≠ 0 → (ppuWrite c p x d).2 = c) := by
  unfold ppuWrite cartPpuWrite mapPpuWrite
  by_cases h0 : c.chrBanks = 0
  · rw [if_pos h0]
    refine ⟨?_, fun h => absurd h0 h⟩
    cases mapPpuRead c x with
    | none =>
      dsimp only
      split
      · rfl
      · split <;> rfl
    | some off => rfl
  · simp only [h0, if_false]
    split
    · simp
    · split <;> simp

theorem ppuRegWrite_cart (r : BitVec 3) (p : Ppu) :
    (ppuRegWrite r d p c).2 = { c with chr := (ppuRegWrite r d p c).2.chr } ∧
      (c.chrBanks ≠ 0 → (ppuRegWrite r d p c).2 = c) := by
  unfold ppuRegWrite
  split <;> first | exact ⟨rfl, fun _ => rfl⟩ | exact ppuWrite_cart c d p _

/-- What no write changes: the CPU, the parameters, PRG, the bank counts, the arrangement, the mapper's variant, CHR ROM,
the master counter. -/
theorem afterWrite_fixed :
    (afterWrite a d s).cpu = s.cpu ∧ (afterWrite a d s).params = s.params ∧
    (afterWrite a d s).cart.prg = s.cart.prg ∧ (afterWrite a d s).cart.prgBanks = s.cart.prgBanks ∧
    (afterWrite a d s).cart.chrBanks = s.cart.chrBanks ∧
    (afterWrite a d s).cart.headerArrangement = s.cart.headerArrangement ∧
    (afterWrite a d s).cart.mapperId = s.cart.mapperId ∧
    (s.cart.chrBanks ≠ 0 → (afterWrite a d s).cart.chr = s.cart.chr) ∧
    (afterWrite a d s).bus.master = s.bus.master := by
  unfold afterWrite
  rcases busWrite_cases a s d with ⟨-, h⟩ | ⟨-, h⟩ | ⟨-, -, h⟩ | ⟨-, h⟩ | ⟨-, h⟩ | ⟨-, -, -, h⟩ | ⟨-, r, hr, h⟩ |
    ⟨-, -, -, -, h⟩ <;> rw [h]
  · simp
  · simp
  · obtain ⟨h1, h2⟩ := ppuRegWrite_cart s.cart d (a.setWidth 3) s.ppu
    dsimp only
    refine ⟨rfl, rfl, ?_, ?_, ?_, ?_, ?_, ?_, rfl⟩
    · rw [h1]
    · rw [h1]
    · rw [h1]
    · rw [h1]
    · rw [h1]; rfl
    · intro h0; rw [h2 h0]
  · simp
  · simp only [State.mapBus_cpu, State.mapBus_params, State.mapBus_cart, State.mapBus_bus, true_and, implies_true]
    unfold ctrlWrite
    split <;> rfl
  · simp
  · simp [Cart.mapperId, hr]
  · simp

@[simp] theorem afterWrite_cpu : (afterWrite a d s).cpu = s.cpu := (afterWrite_fixed a s d).1
@[simp] theorem afterWrite_params : (afterWrite a d s).params = s.params := (afterWrite_fixed a s d).2.1
@[simp] theorem afterWrite_prg : (afterWrite a d s).cart.prg = s.cart.prg := (afterWrite_fixed a s d).2.2.1

theorem mapperId_eq_zero {c : Cart} : c.mapperId = 0 ↔ c.mapper = .nrom := by
  unfold Cart.mapperId
  cases c.mapper <;> simp

/-- The faulting window depends on the mapper's variant only. -/
theorem blocked_congr {c c' : Cart} (h : c'.mapperId = c.mapperId) : Blocked c' a = Blocked c a := by
  have h0 : c'.mapper = .nrom ↔ c.mapper = .nrom := by rw [← mapperId_eq_zero, ← mapperId_eq_zero, h]
  rw [Bool.eq_iff_iff, blocked_iff, blocked_iff, ne_eq, ne_eq, h0]

end Sys2Proof.Machine
end

