-- ==== Sys2Proof/Laws/Flags.lean ====
section
/-! SUPPORT. What each flag setter does to each bit of the status register. -/

namespace Sys2Proof.Machine

variable (p : Byte) (b : Bool)

theorem getLsbD_setC (j : Nat) : (setC p b).getLsbD j = if j = 0 then b else p.getLsbD j := by
  rw [setC, getLsbD_putBit]
  by_cases hj : j = 0 <;> simp [hj]

theorem getLsbD_setZ (j : Nat) : (setZ p b).getLsbD j = if j = 1 then b else p.getLsbD j := by
  rw [setZ, getLsbD_putBit]
  by_cases hj : j = 1 <;> simp [hj]

theorem getLsbD_setI (j : Nat) : (setI p b).getLsbD j = if j = 2 then b else p.getLsbD j := by
  rw [setI, getLsbD_putBit]
  by_cases hj : j = 2 <;> simp [hj]

theorem getLsbD_setD (j : Nat) : (setD p b).getLsbD j = if j = 3 then b else p.getLsbD j := by
  rw [setD, getLsbD_putBit]
  by_cases hj : j = 3 <;> simp [hj]

theorem getLsbD_setB (j : Nat) : (setB p b).getLsbD j = if j = 4 then b else p.getLsbD j := by
  rw [setB, getLsbD_putBit]
  by_cases hj : j = 4 <;> simp [hj]

theorem getLsbD_setV (j : Nat) : (setV p b).getLsbD j = if j = 6 then b else p.getLsbD j := by
  rw [setV, getLsbD_putBit]
  by_cases hj : j = 6 <;> simp [hj]

theorem getLsbD_setN (j : Nat) : (setN p b).getLsbD j = if j = 7 then b else p.getLsbD j := by
  rw [setN, getLsbD_putBit]
  by_cases hj : j = 7 <;> simp [hj]

/-- `SetZN(v)` writes bits 1 and 7 and no other (R26). -/
theorem getLsbD_setZN (v : Byte) (j : Nat) :
    (setZN p v).getLsbD j = if j = 7 then v.getLsbD 7 else if j = 1 then v == 0 else p.getLsbD j := by
  rw [setZN, getLsbD_setN, getLsbD_setZ]

theorem getLsbD_pushedByInstruction (j : Nat) :
    (pushedByInstruction p).getLsbD j = (p.getLsbD j || decide (j = 4 ∨ j = 5)) := by
  by_cases hj : j < 8
  · have : ∀ k < 8, (0x30#8).getLsbD k = decide (k = 4 ∨ k = 5) := by decide
    simp [pushedByInstruction, this j hj]
  · have h1 : ¬ (j = 4 ∨ j = 5) := by omega
    simp [h1, BitVec.getLsbD_of_ge _ j (by omega : 8 ≤ j)]

theorem getLsbD_pushedByInterrupt (j : Nat) :
    (pushedByInterrupt p).getLsbD j = if j = 4 then false else (p.getLsbD j || decide (j = 5)) := by
  by_cases hj : j < 8
  · have h1 : ∀ k < 8, (0xEF#8).getLsbD k = !decide (k = 4) := by decide
    have h2 : ∀ k < 8, (0x20#8).getLsbD k = decide (k = 5) := by decide
    simp only [pushedByInterrupt, BitVec.ofNat_eq_ofNat, BitVec.getLsbD_or, BitVec.getLsbD_and, h1 j hj, h2 j hj]
    by_cases h4 : j = 4 <;> simp [h4]
  · have h4 : j ≠ 4 := by omega
    have h5 : j ≠ 5 := by omega
    simp [h4, h5, BitVec.getLsbD_of_ge _ j (by omega : 8 ≤ j)]

/-- PLP and RTI take bits 4 and 5 from nowhere: `B` is 0 and `U` is 1 (R213, R223). -/
theorem getLsbD_pulledStatus (j : Nat) :
    (pulledStatus p).getLsbD j = if j = 4 then false else if j = 5 then true else p.getLsbD j := by
  by_cases hj : j < 8
  · have h1 : ∀ k < 8, (0xCF#8).getLsbD k = !decide (k = 4 ∨ k = 5) := by decide
    have h2 : ∀ k < 8, (0x20#8).getLsbD k = decide (k = 5) := by decide
    simp only [pulledStatus, BitVec.ofNat_eq_ofNat, BitVec.getLsbD_or, BitVec.getLsbD_and, h1 j hj, h2 j hj]
    by_cases h4 : j = 4
    · simp [h4]
    · by_cases h5 : j = 5 <;> simp [h4, h5]
  · have h4 : j ≠ 4 := by omega
    have h5 : j ≠ 5 := by omega
    simp [h4, h5, BitVec.getLsbD_of_ge _ j (by omega : 8 ≤ j)]

/-! ## The adder -/

theorem bit7_eq (x : Byte) : x.getLsbD 7 = decide (128 ≤ x.toNat) := by
  have h : x.getLsbD 7 = x.msb := by simp [BitVec.msb, BitVec.getMsbD]
  rw [h, BitVec.msb_eq_decide]

theorem signMask_eq (x : Byte) : ((x &&& 0x80) != 0) = x.getLsbD 7 := by
  have hm : ∀ k < 8, (0x80#8).getLsbD k = decide (k = 7) := by decide
  rw [Bool.eq_iff_iff, bne_iff_ne, ne_eq]
  constructor
  · intro h
    by_contra hc
    apply h
    apply BitVec.eq_of_getLsbD_eq
    intro j hj
    by_cases h7 : j = 7
    · subst h7
      simpa using hc
    · simp [hm j hj, h7]
  · intro h hc
    have h7 := congrArg (fun v : Byte => v.getLsbD 7) hc
    rw [BitVec.getLsbD_and, h] at h7
    simp at h7

/-- A byte read as a number in -128..127. -/
theorem toInt_byte (x : Byte) : x.toInt = if 128 ≤ x.toNat then (x.toNat : Int) - 256 else x.toNat := by
  rw [BitVec.toInt_eq_toNat_cond]
  split <;> split <;> omega

/-- The overflow bit of `Add8`, in words: the signed sum is outside -128..127 (R150). -/
theorem add8_v (a m : Byte) (c : Bool) :
    (add8 a m c).v =
      decide (a.toInt + m.toInt + (c.toNat : Int) < -128 ∨ 127 < a.toInt + m.toInt + (c.toNat : Int)) := by
  have ha := a.isLt
  have hm := m.isLt
  have hc : c.toNat ≤ 1 := by cases c <;> simp
  simp only [add8, signMask_eq]
  simp only [BitVec.getLsbD_and, BitVec.getLsbD_not, BitVec.getLsbD_xor]
  simp only [bit7_eq, BitVec.toNat_ofNat]
  rw [toInt_byte, toInt_byte, Bool.eq_iff_iff]
  simp only [decide_eq_true_eq]
  by_cases h1 : 128 ≤ a.toNat <;> by_cases h2 : 128 ≤ m.toNat <;> simp [h1, h2] <;> omega

theorem toNat_complement (m : Byte) : (m ^^^ 0xFF).toNat = 255 - m.toNat := by
  have h : m ^^^ 0xFF = ~~~m := by
    apply BitVec.eq_of_getLsbD_eq
    intro j hj
    have h1 : ∀ k < 8, (0xFF#8).getLsbD k = true := by decide
    rw [BitVec.getLsbD_xor, BitVec.getLsbD_not, BitVec.ofNat_eq_ofNat, h1 j hj]
    simp [hj]
  rw [h, BitVec.toNat_not]

theorem toInt_complement (m : Byte) : (m ^^^ 0xFF).toInt = -1 - m.toInt := by
  have hm := m.isLt
  rw [toInt_byte, toInt_byte, toNat_complement]
  split <;> split <;> omega

end Sys2Proof.Machine
end

