-- ==== Sys2Proof/Laws/Ops.lean ====
section
/-! SUPPORT. What the shared operations do: the stack, interrupt entry and return, reset. None of them can fail: the stack
lies in RAM and the vectors lie in PRG. -/

namespace Sys2Proof.Machine

variable (s : State) (v : Byte)

/-! ## The stack -/

theorem toNat_stackAddr (sp : Byte) : (stackAddr sp).toNat = 256 + sp.toNat := by
  have h := sp.isLt
  have h2 : (zext16 sp).toNat = sp.toNat := toNat_zext16 sp
  rw [stackAddr, BitVec.toNat_or, h2]
  have := Nat.two_pow_add_eq_or_of_lt (i := 8) (b := sp.toNat) h 1
  simpa using this.symm

theorem stackAddr_index (sp : Byte) : (stackAddr sp).toNat % 0x800 = 256 + sp.toNat := by
  have h := sp.isLt
  rw [toNat_stackAddr]
  omega

/-- `Push` always completes, in RAM (R68). -/
theorem push_eq : push v s = .next (pushed v s) := by
  have h := s.cpu.sp.isLt
  rw [push, busWrite_ram _ _ _ (by rw [toNat_stackAddr]; omega), stackAddr_index]
  rfl

/-- `Pull` always completes, from RAM (R68). -/
theorem pull_eq : pull s = .next (s.bus.ram.read (256 + (s.cpu.sp + 1).toNat), s.setSp (s.cpu.sp + 1)) := by
  have h := (s.cpu.sp + 1).isLt
  rw [pull, busRead_ram _ _ (by rw [toNat_stackAddr, State.setSp_cpu_sp]; omega)]
  rw [State.setSp_cpu_sp, State.setSp_bus, stackAddr_index]

@[simp] theorem pushed_cart : (pushed v s).cart = s.cart := rfl
@[simp] theorem pushed_params : (pushed v s).params = s.params := rfl
@[simp] theorem pushed_ppu : (pushed v s).ppu = s.ppu := rfl
@[simp] theorem pushed_sp : (pushed v s).cpu.sp = s.cpu.sp - 1 := rfl
@[simp] theorem pushed_pc : (pushed v s).cpu.pc = s.cpu.pc := rfl
@[simp] theorem pushed_p : (pushed v s).cpu.p = s.cpu.p := rfl
@[simp] theorem pushed_a : (pushed v s).cpu.a = s.cpu.a := rfl
@[simp] theorem pushed_x : (pushed v s).cpu.x = s.cpu.x := rfl
@[simp] theorem pushed_y : (pushed v s).cpu.y = s.cpu.y := rfl
@[simp] theorem pushed_cycles : (pushed v s).cpu.cycles = s.cpu.cycles := rfl
@[simp] theorem pushed_adr : (pushed v s).cpu.adr = s.cpu.adr := rfl
theorem pushed_ram : (pushed v s).bus.ram = s.bus.ram.write (256 + s.cpu.sp.toNat) v := rfl
theorem pushed_setPc (a : Word) : pushed v (s.setPc a) = (pushed v s).setPc a := rfl
theorem pushed_setCycles (n : Nat) : pushed v (s.setCycles n) = (pushed v s).setCycles n := rfl
theorem pushed_setAdr (a : Word) : pushed v (s.setAdr a) = (pushed v s).setAdr a := rfl

/-- A push leaves what is read from 0x8000 up, where the vectors are (R67). -/
theorem readByte_high_congr {s t : State} {a : Word} (h : 0x8000 ≤ a.toNat) (hc : t.cart = s.cart)
    (hp : t.params = s.params) : readByte a t = readByte a s := by
  obtain ⟨off, h1, h2⟩ := busRead_prg a s h
  have h3 : busRead a t = .next (s.cart.prg.read (s.cart.prgIndex off), t) := by
    unfold busRead
    rw [hc, hp, h1]
  simp only [readByte, h2, h3]

/-! ## Vectors, interrupt entry and return -/

theorem busRead_high (a : Word) (h : 0x8000 ≤ a.toNat) : busRead a s = .next (readByte a s, s) := by
  obtain ⟨off, -, h2⟩ := busRead_prg a s h
  rw [h2]
  simp [readByte, h2]

/-- Loading PC from one of the three vectors always completes and has no side effect (R67, R389). -/
theorem loadVector_eq (vec : Word) (h : 0x8000 ≤ vec.toNat) (h' : 0x8000 ≤ (vec + 1).toNat) :
    loadVector vec s = .next (s.setPc (vectorWord vec s)) := by
  rw [loadVector, busRead_high _ _ h, andThen_next, busRead_high _ _ h', andThen_next]
  rfl

/-- Taking an exception always completes (R381). -/
theorem takeException_eq (status : Byte) (vec : Word) (h : 0x8000 ≤ vec.toNat) (h' : 0x8000 ≤ (vec + 1).toNat) :
    takeException status vec s = .next (entered status vec s) := by
  rw [takeException, push_eq, andThen_next, push_eq, andThen_next, push_eq, andThen_next, loadVector_eq _ _ h h']
  have h1 : ∀ a : Word, 0x8000 ≤ a.toNat →
      readByte a ((pushed status (pushed (loByte s.cpu.pc) (pushed (hiByte s.cpu.pc) s))).setP
        (setI s.cpu.p true)) = readByte a s := fun a ha => readByte_high_congr ha rfl rfl
  simp only [pushed_pc, pushed_p, vectorWord, h1 _ h, h1 _ h']
  rfl

theorem cpuNmi_eq :
    cpuNmi s = .next ((entered (pushedByInterrupt s.cpu.p) 0xFFFA s).addCycles s.params.cycNmi) := by
  rw [cpuNmi, interruptEntry, vectorNmi, takeException_eq _ _ _ (by decide) (by decide), andThen_next]

theorem cpuIrq_masked (h : flagI s.cpu.p = true) : cpuIrq s = .next s := by simp [cpuIrq, h]

theorem cpuIrq_eq (h : flagI s.cpu.p = false) :
    cpuIrq s = .next ((entered (pushedByInterrupt s.cpu.p) 0xFFFE s).addCycles s.params.cycIrq) := by
  rw [cpuIrq, if_pos h, interruptEntry, vectorIrq, takeException_eq _ _ _ (by decide) (by decide), andThen_next]

theorem returnFromException_eq :
    returnFromException s =
      .next (((s.setSp (s.cpu.sp + 3)).setP (pulledStatus (stackByte 0 s))).setPc
        (mkWord (stackByte 2 s) (stackByte 1 s))) := by
  rw [returnFromException, pull_eq, andThen_next]
  dsimp only
  rw [pull_eq, andThen_next, pull_eq, andThen_next]
  simp only [State.setSp_cpu_sp, State.setP_cpu_sp, State.setSp_bus, State.setP_bus, stackByte]
  have h1 : s.cpu.sp + 1 + 1 + 1 = s.cpu.sp + 3 := by bv_omega
  have h2 : s.cpu.sp + 1 + BitVec.ofNat 8 1 = s.cpu.sp + 1 + 1 := by bv_omega
  have h3 : s.cpu.sp + 1 + BitVec.ofNat 8 2 = s.cpu.sp + 1 + 1 + 1 := by bv_omega
  have h0 : s.cpu.sp + 1 + BitVec.ofNat 8 0 = s.cpu.sp + 1 := by bv_omega
  rw [h0, h2, h3, h1]
  rfl

/-! ## Reset -/

theorem busReset_eq :
    busReset s =
      .next { s with
        cpu :=
          { a := 0
            x := 0
            y := 0
            sp := 0xFD
            pc := vectorWord 0xFFFC s
            p := s.params.pReset
            cycles := 8
            adr := 0 }
        bus := { s.bus with master := 0, dmaMark := false } } := by
  rw [busReset, cpuReset]
  dsimp only
  rw [vectorReset, loadVector_eq _ _ (by decide) (by decide), andThen_next]
  have h1 : ∀ (g : Bus → Bus) (f : Cpu → Cpu),
      vectorWord 0xFFFC ((s.mapBus g).mapCpu f) = vectorWord 0xFFFC s := by
    intro g f
    rw [vectorWord, vectorWord, readByte_mapCpu, readByte_mapCpu,
      readByte_high_congr (s := s) (t := s.mapBus g) (by decide) rfl rfl,
      readByte_high_congr (s := s) (t := s.mapBus g) (by decide) rfl rfl]
  rw [h1]
  rfl

end Sys2Proof.Machine
end

