-- ==== Sys2Proof/Laws/Ppu.lean ====
section
/-! SUPPORT. What a dot can do: what each of its steps leaves alone, and where it writes. -/

namespace Sys2Proof.Machine

variable (c : Cart) (p : Ppu)

theorem advance_frame :
    advance p =
      { p with scanline := (advance p).scanline, cycle := (advance p).cycle, frameComplete := (advance p).frameComplete } := by
  unfold advance
  split
  · split <;> rfl
  · rfl

theorem tickFlags_frame :
    tickFlags p =
      { p with
        vblank := (tickFlags p).vblank
        sprite0 := (tickFlags p).sprite0
        overflow := (tickFlags p).overflow
        nmiOut := (tickFlags p).nmiOut } := by
  unfold tickFlags vblankEntry preRenderClear
  split
  · rfl
  · split <;> rfl

theorem tickPixel_frame :
    tickPixel p = { p with sprite0 := (tickPixel p).sprite0, framebuffer := (tickPixel p).framebuffer } := by
  unfold tickPixel emitPixel
  split <;> rfl

theorem tickBackground_frame :
    tickBackground c p =
      { p with
        bgLo := (tickBackground c p).bgLo
        bgHi := (tickBackground c p).bgHi
        atLo := (tickBackground c p).atLo
        atHi := (tickBackground c p).atHi
        v := (tickBackground c p).v } := by
  unfold tickBackground tickScroll tickShift shiftBackground fetchTile
  dsimp only
  split
  · split
    · split <;> rfl
    · rfl
  · rfl

theorem evalSprite_frame (n : BitVec 6) :
    evalSprite p n = { p with sec := (evalSprite p n).sec, overflow := (evalSprite p n).overflow } := by
  unfold evalSprite
  dsimp only
  split
  · split <;> rfl
  · rfl

theorem tickEvaluate_frame :
    tickEvaluate p = { p with sec := (tickEvaluate p).sec, overflow := (tickEvaluate p).overflow } := by
  unfold tickEvaluate
  dsimp only
  split <;> split
  · rw [evalSprite_frame]
  · rfl
  · rw [evalSprite_frame]
  · rfl

theorem tickFetchSprite_frame : tickFetchSprite c p = { p with units := (tickFetchSprite c p).units } := by
  unfold tickFetchSprite fetchSprite
  split
  · split <;> rfl
  · rfl

theorem tickSprites_frame :
    tickSprites c p =
      { p with
        sec := (tickSprites c p).sec
        overflow := (tickSprites c p).overflow
        units := (tickSprites c p).units } := by
  unfold tickSprites
  dsimp only
  split
  · split
    · split
      · rw [tickFetchSprite_frame, tickEvaluate_frame]
      · rfl
    · split
      · rw [tickFetchSprite_frame, tickEvaluate_frame]
      · rfl
  · rfl

/-! ## The fields each part of a dot leaves alone -/

@[simp] theorem advance_nmiOut : (advance p).nmiOut = p.nmiOut := by rw [advance_frame]
@[simp] theorem advance_control : (advance p).control = p.control := by rw [advance_frame]
@[simp] theorem advance_mask : (advance p).mask = p.mask := by rw [advance_frame]
@[simp] theorem advance_vblank : (advance p).vblank = p.vblank := by rw [advance_frame]
@[simp] theorem advance_sprite0 : (advance p).sprite0 = p.sprite0 := by rw [advance_frame]
@[simp] theorem advance_overflow : (advance p).overflow = p.overflow := by rw [advance_frame]
@[simp] theorem advance_oamAddr : (advance p).oamAddr = p.oamAddr := by rw [advance_frame]
@[simp] theorem advance_w : (advance p).w = p.w := by rw [advance_frame]
@[simp] theorem advance_dataBuffer : (advance p).dataBuffer = p.dataBuffer := by rw [advance_frame]
@[simp] theorem advance_v : (advance p).v = p.v := by rw [advance_frame]
@[simp] theorem advance_t : (advance p).t = p.t := by rw [advance_frame]
@[simp] theorem advance_fineX : (advance p).fineX = p.fineX := by rw [advance_frame]
@[simp] theorem advance_oam : (advance p).oam = p.oam := by rw [advance_frame]
@[simp] theorem advance_nt : (advance p).nt = p.nt := by rw [advance_frame]
@[simp] theorem advance_pal : (advance p).pal = p.pal := by rw [advance_frame]
@[simp] theorem advance_bgLo : (advance p).bgLo = p.bgLo := by rw [advance_frame]
@[simp] theorem advance_bgHi : (advance p).bgHi = p.bgHi := by rw [advance_frame]
@[simp] theorem advance_atLo : (advance p).atLo = p.atLo := by rw [advance_frame]
@[simp] theorem advance_atHi : (advance p).atHi = p.atHi := by rw [advance_frame]
@[simp] theorem advance_sec : (advance p).sec = p.sec := by rw [advance_frame]
@[simp] theorem advance_units : (advance p).units = p.units := by rw [advance_frame]
@[simp] theorem advance_framebuffer : (advance p).framebuffer = p.framebuffer := by rw [advance_frame]

@[simp] theorem tickFlags_scanline : (tickFlags p).scanline = p.scanline := by rw [tickFlags_frame]
@[simp] theorem tickFlags_cycle : (tickFlags p).cycle = p.cycle := by rw [tickFlags_frame]
@[simp] theorem tickFlags_frameComplete : (tickFlags p).frameComplete = p.frameComplete := by rw [tickFlags_frame]
@[simp] theorem tickFlags_control : (tickFlags p).control = p.control := by rw [tickFlags_frame]
@[simp] theorem tickFlags_mask : (tickFlags p).mask = p.mask := by rw [tickFlags_frame]
@[simp] theorem tickFlags_oamAddr : (tickFlags p).oamAddr = p.oamAddr := by rw [tickFlags_frame]
@[simp] theorem tickFlags_w : (tickFlags p).w = p.w := by rw [tickFlags_frame]
@[simp] theorem tickFlags_dataBuffer : (tickFlags p).dataBuffer = p.dataBuffer := by rw [tickFlags_frame]
@[simp] theorem tickFlags_v : (tickFlags p).v = p.v := by rw [tickFlags_frame]
@[simp] theorem tickFlags_t : (tickFlags p).t = p.t := by rw [tickFlags_frame]
@[simp] theorem tickFlags_fineX : (tickFlags p).fineX = p.fineX := by rw [tickFlags_frame]
@[simp] theorem tickFlags_oam : (tickFlags p).oam = p.oam := by rw [tickFlags_frame]
@[simp] theorem tickFlags_nt : (tickFlags p).nt = p.nt := by rw [tickFlags_frame]
@[simp] theorem tickFlags_pal : (tickFlags p).pal = p.pal := by rw [tickFlags_frame]
@[simp] theorem tickFlags_bgLo : (tickFlags p).bgLo = p.bgLo := by rw [tickFlags_frame]
@[simp] theorem tickFlags_bgHi : (tickFlags p).bgHi = p.bgHi := by rw [tickFlags_frame]
@[simp] theorem tickFlags_atLo : (tickFlags p).atLo = p.atLo := by rw [tickFlags_frame]
@[simp] theorem tickFlags_atHi : (tickFlags p).atHi = p.atHi := by rw [tickFlags_frame]
@[simp] theorem tickFlags_sec : (tickFlags p).sec = p.sec := by rw [tickFlags_frame]
@[simp] theorem tickFlags_units : (tickFlags p).units = p.units := by rw [tickFlags_frame]
@[simp] theorem tickFlags_framebuffer : (tickFlags p).framebuffer = p.framebuffer := by rw [tickFlags_frame]

@[simp] theorem tickPixel_scanline : (tickPixel p).scanline = p.scanline := by rw [tickPixel_frame]
@[simp] theorem tickPixel_cycle : (tickPixel p).cycle = p.cycle := by rw [tickPixel_frame]
@[simp] theorem tickPixel_frameComplete : (tickPixel p).frameComplete = p.frameComplete := by rw [tickPixel_frame]
@[simp] theorem tickPixel_nmiOut : (tickPixel p).nmiOut = p.nmiOut := by rw [tickPixel_frame]
@[simp] theorem tickPixel_control : (tickPixel p).control = p.control := by rw [tickPixel_frame]
@[simp] theorem tickPixel_mask : (tickPixel p).mask = p.mask := by rw [tickPixel_frame]
@[simp] theorem tickPixel_vblank : (tickPixel p).vblank = p.vblank := by rw [tickPixel_frame]
@[simp] theorem tickPixel_overflow : (tickPixel p).overflow = p.overflow := by rw [tickPixel_frame]
@[simp] theorem tickPixel_oamAddr : (tickPixel p).oamAddr = p.oamAddr := by rw [tickPixel_frame]
@[simp] theorem tickPixel_w : (tickPixel p).w = p.w := by rw [tickPixel_frame]
@[simp] theorem tickPixel_dataBuffer : (tickPixel p).dataBuffer = p.dataBuffer := by rw [tickPixel_frame]
@[simp] theorem tickPixel_v : (tickPixel p).v = p.v := by rw [tickPixel_frame]
@[simp] theorem tickPixel_t : (tickPixel p).t = p.t := by rw [tickPixel_frame]
@[simp] theorem tickPixel_fineX : (tickPixel p).fineX = p.fineX := by rw [tickPixel_frame]
@[simp] theorem tickPixel_oam : (tickPixel p).oam = p.oam := by rw [tickPixel_frame]
@[simp] theorem tickPixel_nt : (tickPixel p).nt = p.nt := by rw [tickPixel_frame]
@[simp] theorem tickPixel_pal : (tickPixel p).pal = p.pal := by rw [tickPixel_frame]
@[simp] theorem tickPixel_bgLo : (tickPixel p).bgLo = p.bgLo := by rw [tickPixel_frame]
@[simp] theorem tickPixel_bgHi : (tickPixel p).bgHi = p.bgHi := by rw [tickPixel_frame]
@[simp] theorem tickPixel_atLo : (tickPixel p).atLo = p.atLo := by rw [tickPixel_frame]
@[simp] theorem tickPixel_atHi : (tickPixel p).atHi = p.atHi := by rw [tickPixel_frame]
@[simp] theorem tickPixel_sec : (tickPixel p).sec = p.sec := by rw [tickPixel_frame]
@[simp] theorem tickPixel_units : (tickPixel p).units = p.units := by rw [tickPixel_frame]

@[simp] theorem tickBackground_scanline : (tickBackground c p).scanline = p.scanline := by rw [tickBackground_frame]
@[simp] theorem tickBackground_cycle : (tickBackground c p).cycle = p.cycle := by rw [tickBackground_frame]
@[simp] theorem tickBackground_frameComplete : (tickBackground c p).frameComplete = p.frameComplete := by rw [tickBackground_frame]
@[simp] theorem tickBackground_nmiOut : (tickBackground c p).nmiOut = p.nmiOut := by rw [tickBackground_frame]
@[simp] theorem tickBackground_control : (tickBackground c p).control = p.control := by rw [tickBackground_frame]
@[simp] theorem tickBackground_mask : (tickBackground c p).mask = p.mask := by rw [tickBackground_frame]
@[simp] theorem tickBackground_vblank : (tickBackground c p).vblank = p.vblank := by rw [tickBackground_frame]
@[simp] theorem tickBackground_sprite0 : (tickBackground c p).sprite0 = p.sprite0 := by rw [tickBackground_frame]
@[simp] theorem tickBackground_overflow : (tickBackground c p).overflow = p.overflow := by rw [tickBackground_frame]
@[simp] theorem tickBackground_oamAddr : (tickBackground c p).oamAddr = p.oamAddr := by rw [tickBackground_frame]
@[simp] theorem tickBackground_w : (tickBackground c p).w = p.w := by rw [tickBackground_frame]
@[simp] theorem tickBackground_dataBuffer : (tickBackground c p).dataBuffer = p.dataBuffer := by rw [tickBackground_frame]
@[simp] theorem tickBackground_t : (tickBackground c p).t = p.t := by rw [tickBackground_frame]
@[simp] theorem tickBackground_fineX : (tickBackground c p).fineX = p.fineX := by rw [tickBackground_frame]
@[simp] theorem tickBackground_oam : (tickBackground c p).oam = p.oam := by rw [tickBackground_frame]
@[simp] theorem tickBackground_nt : (tickBackground c p).nt = p.nt := by rw [tickBackground_frame]
@[simp] theorem tickBackground_pal : (tickBackground c p).pal = p.pal := by rw [tickBackground_frame]
@[simp] theorem tickBackground_sec : (tickBackground c p).sec = p.sec := by rw [tickBackground_frame]
@[simp] theorem tickBackground_units : (tickBackground c p).units = p.units := by rw [tickBackground_frame]
@[simp] theorem tickBackground_framebuffer : (tickBackground c p).framebuffer = p.framebuffer := by rw [tickBackground_frame]

@[simp] theorem tickSprites_scanline : (tickSprites c p).scanline = p.scanline := by rw [tickSprites_frame]
@[simp] theorem tickSprites_cycle : (tickSprites c p).cycle = p.cycle := by rw [tickSprites_frame]
@[simp] theorem tickSprites_frameComplete : (tickSprites c p).frameComplete = p.frameComplete := by rw [tickSprites_frame]
@[simp] theorem tickSprites_nmiOut : (tickSprites c p).nmiOut = p.nmiOut := by rw [tickSprites_frame]
@[simp] theorem tickSprites_control : (tickSprites c p).control = p.control := by rw [tickSprites_frame]
@[simp] theorem tickSprites_mask : (tickSprites c p).mask = p.mask := by rw [tickSprites_frame]
@[simp] theorem tickSprites_vblank : (tickSprites c p).vblank = p.vblank := by rw [tickSprites_frame]
@[simp] theorem tickSprites_sprite0 : (tickSprites c p).sprite0 = p.sprite0 := by rw [tickSprites_frame]
@[simp] theorem tickSprites_oamAddr : (tickSprites c p).oamAddr = p.oamAddr := by rw [tickSprites_frame]
@[simp] theorem tickSprites_w : (tickSprites c p).w = p.w := by rw [tickSprites_frame]
@[simp] theorem tickSprites_dataBuffer : (tickSprites c p).dataBuffer = p.dataBuffer := by rw [tickSprites_frame]
@[simp] theorem tickSprites_v : (tickSprites c p).v = p.v := by rw [tickSprites_frame]
@[simp] theorem tickSprites_t : (tickSprites c p).t = p.t := by rw [tickSprites_frame]
@[simp] theorem tickSprites_fineX : (tickSprites c p).fineX = p.fineX := by rw [tickSprites_frame]
@[simp] theorem tickSprites_oam : (tickSprites c p).oam = p.oam := by rw [tickSprites_frame]
@[simp] theorem tickSprites_nt : (tickSprites c p).nt = p.nt := by rw [tickSprites_frame]
@[simp] theorem tickSprites_pal : (tickSprites c p).pal = p.pal := by rw [tickSprites_frame]
@[simp] theorem tickSprites_bgLo : (tickSprites c p).bgLo = p.bgLo := by rw [tickSprites_frame]
@[simp] theorem tickSprites_bgHi : (tickSprites c p).bgHi = p.bgHi := by rw [tickSprites_frame]
@[simp] theorem tickSprites_atLo : (tickSprites c p).atLo = p.atLo := by rw [tickSprites_frame]
@[simp] theorem tickSprites_atHi : (tickSprites c p).atHi = p.atHi := by rw [tickSprites_frame]
@[simp] theorem tickSprites_framebuffer : (tickSprites c p).framebuffer = p.framebuffer := by rw [tickSprites_frame]

/-- What no dot changes: the registers the CPU writes, and every memory but the frame buffer. -/
theorem ppuTick_frame :
    (ppuTick c p).control = p.control ∧ (ppuTick c p).mask = p.mask ∧ (ppuTick c p).oamAddr = p.oamAddr ∧
    (ppuTick c p).w = p.w ∧ (ppuTick c p).dataBuffer = p.dataBuffer ∧ (ppuTick c p).t = p.t ∧
    (ppuTick c p).fineX = p.fineX ∧ (ppuTick c p).oam = p.oam ∧ (ppuTick c p).nt = p.nt ∧ (ppuTick c p).pal = p.pal := by
  simp [ppuTick]

theorem advance_position_congr {p q : Ppu} (h1 : q.scanline = p.scanline) (h2 : q.cycle = p.cycle)
    (h3 : q.frameComplete = p.frameComplete) :
    (advance q).scanline = (advance p).scanline ∧ (advance q).cycle = (advance p).cycle ∧
      (advance q).frameComplete = (advance p).frameComplete := by
  unfold advance
  rw [h1, h2, h3]
  split
  · split <;> exact ⟨rfl, rfl, rfl⟩
  · exact ⟨rfl, rfl, rfl⟩

/-- Where a dot leaves the position (R281). -/
theorem ppuTick_position :
    (ppuTick c p).scanline = (advance p).scanline ∧ (ppuTick c p).cycle = (advance p).cycle ∧
      (ppuTick c p).frameComplete = (advance p).frameComplete :=
  advance_position_congr (by simp) (by simp) (by simp)

/-- The one place a dot writes to a memory: the pixel of a visible dot (R280, R295). -/
theorem ppuTick_framebuffer :
    (ppuTick c p).framebuffer = p.framebuffer ∨
      ∃ b, p.scanline ≤ 239 ∧ 1 ≤ p.cycle ∧ p.cycle ≤ 256 ∧
        (ppuTick c p).framebuffer = p.framebuffer.write (256 * p.scanline + (p.cycle - 1)) b := by
  simp only [ppuTick, advance_framebuffer, tickSprites_framebuffer, tickBackground_framebuffer]
  unfold tickPixel emitPixel
  simp only [tickFlags_scanline, tickFlags_cycle]
  split
  · rename_i h
    simp only [tickFlags_framebuffer]
    exact .inr ⟨_, h.1, h.2.1, h.2.2, rfl⟩
  · simp

/-- Outside its flags' dot a dot raises no NMI request; there it does if NMIs are enabled (R282). -/
theorem ppuTick_nmiOut :
    (ppuTick c p).nmiOut = (p.nmiOut || (decide (p.scanline = 241 ∧ p.cycle = 1) && p.nmiEnable)) := by
  simp only [ppuTick, advance_nmiOut, tickSprites_nmiOut, tickBackground_nmiOut, tickPixel_nmiOut]
  unfold tickFlags vblankEntry preRenderClear
  by_cases h : p.scanline = 241 ∧ p.cycle = 1
  · simp [h]
  · rw [if_neg h]
    split <;> simp [h]

/-- A read of the pattern tables does not look at the PPU (R275). -/
theorem ppuRead_pattern (q : Ppu) (a : PpuAddr) (h : a.toNat ≤ 0x1FFF) : ppuRead c p a = ppuRead c q a := by
  unfold ppuRead
  split
  · rfl
  · simp [h]

/-- What a PPU read depends on (R275). -/
theorem ppuRead_congr {p q : Ppu} (a : PpuAddr) (hn : q.nt = p.nt) (hp : q.pal = p.pal) (hm : q.mask = p.mask) :
    ppuRead c q a = ppuRead c p a := by
  unfold ppuRead palIndex Ppu.showBg Ppu.showSpr
  rw [hn, hp, hm]

/-- A read the cartridge claims is the CHR byte at the reduced offset (R275, R338, R351). -/
theorem ppuRead_chr (a : PpuAddr) {off : Nat} (h : mapPpuRead c a = some off) :
    ppuRead c p a = c.chr.read (c.chrIndex off) := by simp [ppuRead, cartPpuRead, h]

/-- No address from 0x2000 up is claimed by a cartridge (R342, R349). -/
theorem cartPpuRead_above (a : PpuAddr) (h : 0x2000 ≤ a.toNat) : cartPpuRead c a = none := by
  have : ¬ a.toNat ≤ 0x1FFF := by omega
  simp [cartPpuRead, mapPpuRead, this]

/-- A read of the nametables (R275, R277). -/
theorem ppuRead_nametable (a : PpuAddr) (h1 : 0x2000 ≤ a.toNat) (h2 : a.toNat ≤ 0x3EFF) :
    ppuRead c p a = p.nt.read (ntIndex c a) := by
  have : ¬ a.toNat ≤ 0x1FFF := by omega
  simp [ppuRead, cartPpuRead_above c a h1, this, h2]

/-- A read of the palette (R275, R278). -/
theorem ppuRead_palette (a : PpuAddr) (h : 0x3F00 ≤ a.toNat) : ppuRead c p a = p.pal.read (palIndex p a) := by
  have h1 : ¬ a.toNat ≤ 0x1FFF := by omega
  have h2 : ¬ a.toNat ≤ 0x3EFF := by omega
  simp [ppuRead, cartPpuRead_above c a (by omega), h1, h2]

theorem ntIndex_lt (a : PpuAddr) : ntIndex c a < 2048 := by
  unfold ntIndex ntTable
  have h : ∀ b : Bool, b.toNat ≤ 1 := by decide
  split
  · have := h (a.getLsbD 11); omega
  · have := h (a.getLsbD 10); omega

theorem palIndex_lt (a : PpuAddr) : palIndex p a < 32 := by
  unfold palIndex
  dsimp only
  split <;> split <;> omega

/-- Where a PPU write lands (R276). -/
theorem ppuWrite_cases (a : PpuAddr) (d : Byte) :
    (∃ off, c.chrBanks = 0 ∧ a.toNat ≤ 0x1FFF ∧
      ppuWrite c p a d = (p, { c with chr := c.chr.write (c.chrIndex off) d })) ∨
    (c.chrBanks ≠ 0 ∧ a.toNat ≤ 0x1FFF ∧ ppuWrite c p a d = (p, c)) ∨
    (0x2000 ≤ a.toNat ∧ a.toNat ≤ 0x3EFF ∧ ppuWrite c p a d = ({ p with nt := p.nt.write (ntIndex c a) d }, c)) ∨
    (0x3F00 ≤ a.toNat ∧ ppuWrite c p a d = ({ p with pal := p.pal.write (palIndex p a) d }, c)) := by
  unfold ppuWrite cartPpuWrite mapPpuWrite mapPpuRead
  by_cases h1 : a.toNat ≤ 0x1FFF
  · by_cases h2 : c.chrBanks = 0
    · left
      simp only [h1, h2, if_true]
      cases c.mapper <;> exact ⟨_, trivial, trivial, rfl⟩
    · right; left
      simp [h1, h2]
  · right; right
    by_cases h2 : a.toNat ≤ 0x3EFF
    · left
      refine ⟨by omega, h2, ?_⟩
      by_cases h3 : c.chrBanks = 0 <;> simp [h1, h2, h3]
    · right
      refine ⟨by omega, ?_⟩
      by_cases h3 : c.chrBanks = 0 <;> simp [h1, h2, h3]

end Sys2Proof.Machine
end

