-- ==== Sys2Proof/Laws/Canonical.lean ====
section
/-! SUPPORT. Every operation keeps every memory of the machine in its canonical form, and power-on builds it so. -/

namespace Sys2Proof.Machine

variable {s : State} {a : Word} {d v : Byte}

theorem Bus.memWf_iff {b : Bus} : b.memWf = true ↔ b.ram.wf 2048 = true ∧ b.cartRam.wf 8192 = true := by
  simp [Bus.memWf]

theorem Ppu.memWf_iff {p : Ppu} :
    p.memWf = true ↔
      p.oam.wf 256 = true ∧ p.nt.wf 2048 = true ∧ p.pal.wf 32 = true ∧ p.framebuffer.wf 61440 = true := by
  simp [Ppu.memWf, and_assoc]

theorem Cart.memWf_iff {c : Cart} : c.memWf = true ↔ c.prg.wf c.prgSize = true ∧ c.chr.wf c.chrSize = true := by
  simp [Cart.memWf]

theorem State.memWf_iff :
    s.memWf = true ↔ s.bus.memWf = true ∧ s.ppu.memWf = true ∧ s.cart.memWf = true := by
  simp [State.memWf, and_assoc]

theorem State.reset_memWf : State.reset.memWf = true := by decide

@[simp] theorem State.memWf_mapCpu (f : Cpu → Cpu) : (s.mapCpu f).memWf = s.memWf := rfl

theorem Ppu.memWf_congr {p q : Ppu} (h1 : q.oam = p.oam) (h2 : q.nt = p.nt) (h3 : q.pal = p.pal)
    (h4 : q.framebuffer = p.framebuffer) : q.memWf = p.memWf := by
  unfold Ppu.memWf
  rw [h1, h2, h3, h4]

/-- A read changes no memory. -/
theorem State.memWf_afterRead (h : s.memWf = true) : (afterRead a s).memWf = true := by
  rw [afterRead_frame]
  exact h

/-- A dot writes to the frame buffer only. -/
theorem Ppu.memWf_tick (c : Cart) {p : Ppu} (h : p.memWf = true) : (ppuTick c p).memWf = true := by
  rw [Ppu.memWf_iff] at h ⊢
  obtain ⟨-, -, -, -, -, -, -, h1, h2, h3⟩ := ppuTick_frame c p
  rw [h1, h2, h3]
  refine ⟨h.1, h.2.1, h.2.2.1, ?_⟩
  rcases ppuTick_framebuffer c p with h4 | ⟨b, h4, -, h5, h6⟩
  · rw [h4]; exact h.2.2.2
  · rw [h6]; exact Mem.wf_write b h.2.2.2 (by omega)

/-- A DMA keeps OAM canonical (R371). -/
theorem Mem.wf_dma {ram oam : Mem 8} (page oamAddr : Byte) (l : List Nat) (h : oam.wf 256 = true) :
    (l.foldl (dmaByte ram page oamAddr) oam).wf 256 = true := by
  induction l generalizing oam with
  | nil => exact h
  | cons k l ih => exact ih (Mem.wf_write _ h (by omega))

/-- A DMA keeps the PPU's memories canonical (R371). -/
theorem Ppu.memWf_oamDma (page : Byte) (ram : Mem 8) {p : Ppu} (h : p.memWf = true) :
    (oamDma page ram p).memWf = true := by
  unfold oamDma
  generalize List.range 256 = l
  have hp := Ppu.memWf_iff.mp h
  exact Ppu.memWf_iff.mpr ⟨Mem.wf_dma page p.oamAddr l hp.1, hp.2⟩

theorem Cart.chrIndex_lt {c : Cart} (h : c.chrBanks = 0) (off : Nat) : c.chrIndex off < c.chrSize := by
  unfold Cart.chrIndex
  exact Nat.mod_lt _ (by simp [Cart.chrSize, h])

/-- A PPU write keeps the PPU's and the cartridge's memories canonical (R276). -/
theorem memWf_ppuWrite {c : Cart} {p : Ppu} (x : PpuAddr) (d : Byte) (hp : p.memWf = true) (hc : c.memWf = true) :
    (ppuWrite c p x d).1.memWf = true ∧ (ppuWrite c p x d).2.memWf = true := by
  rcases ppuWrite_cases c p x d with ⟨off, h1, -, h2⟩ | ⟨-, -, h2⟩ | ⟨-, -, h2⟩ | ⟨-, h2⟩ <;> rw [h2]
  · refine ⟨hp, ?_⟩
    rw [Cart.memWf_iff] at hc ⊢
    exact ⟨hc.1, Mem.wf_write _ hc.2 (Cart.chrIndex_lt h1 off)⟩
  · exact ⟨hp, hc⟩
  · refine ⟨?_, hc⟩
    rw [Ppu.memWf_iff] at hp ⊢
    exact ⟨hp.1, Mem.wf_write _ hp.2.1 (ntIndex_lt c x), hp.2.2⟩
  · refine ⟨?_, hc⟩
    rw [Ppu.memWf_iff] at hp ⊢
    exact ⟨hp.1, hp.2.1, Mem.wf_write _ hp.2.2.1 (palIndex_lt p x), hp.2.2.2⟩

/-- A write to a PPU register keeps the memories canonical (R261). -/
theorem memWf_ppuRegWrite {c : Cart} {p : Ppu} (r : BitVec 3) (d : Byte) (hp : p.memWf = true) (hc : c.memWf = true) :
    (ppuRegWrite r d p c).1.memWf = true ∧ (ppuRegWrite r d p c).2.memWf = true := by
  unfold ppuRegWrite
  split
  · exact ⟨hp, hc⟩
  · exact ⟨hp, hc⟩
  · exact ⟨hp, hc⟩
  · refine ⟨?_, hc⟩
    rw [Ppu.memWf_iff] at hp ⊢
    exact ⟨Mem.wf_write _ hp.1 p.oamAddr.isLt, hp.2⟩
  · refine ⟨?_, hc⟩
    unfold writeScroll
    split <;> exact hp
  · refine ⟨?_, hc⟩
    unfold writeAddr
    split <;> exact hp
  · exact memWf_ppuWrite _ d hp hc
  · exact ⟨hp, hc⟩

/-- A bus write keeps every memory canonical (R232). -/
theorem State.memWf_afterWrite (h : s.memWf = true) : (afterWrite a d s).memWf = true := by
  have h0 := State.memWf_iff.mp h
  unfold afterWrite
  rcases busWrite_cases a s d with ⟨-, e⟩ | ⟨-, e⟩ | ⟨-, -, e⟩ | ⟨-, e⟩ | ⟨-, e⟩ | ⟨-, -, -, e⟩ | ⟨-, r, hr, e⟩ |
    ⟨-, -, -, -, e⟩ <;> rw [e] <;> dsimp only
  · exact h
  · have hb := Bus.memWf_iff.mp h0.1
    exact State.memWf_iff.mpr ⟨Bus.memWf_iff.mpr ⟨Mem.wf_write _ hb.1 (by omega), hb.2⟩, h0.2⟩
  · exact State.memWf_iff.mpr ⟨h0.1, memWf_ppuRegWrite _ d h0.2.1 h0.2.2⟩
  · exact State.memWf_iff.mpr ⟨h0.1, Ppu.memWf_oamDma d s.bus.ram h0.2.1, h0.2.2⟩
  · have hb : (ctrlWrite d s.bus).memWf = s.bus.memWf := by
      unfold ctrlWrite
      split <;> rfl
    exact State.memWf_iff.mpr ⟨hb.trans h0.1, h0.2⟩
  · have hb := Bus.memWf_iff.mp h0.1
    exact State.memWf_iff.mpr ⟨Bus.memWf_iff.mpr ⟨hb.1, Mem.wf_write _ hb.2 (by omega)⟩, h0.2⟩
  · exact h
  · exact h

/-- A push keeps every memory canonical (R68). -/
theorem State.memWf_pushed (h : s.memWf = true) : (pushed v s).memWf = true := by
  have h0 := State.memWf_iff.mp h
  have hb := Bus.memWf_iff.mp h0.1
  have hs := s.cpu.sp.isLt
  exact State.memWf_iff.mpr ⟨Bus.memWf_iff.mpr ⟨Mem.wf_write _ hb.1 (by omega), hb.2⟩, h0.2⟩

/-- Interrupt entry keeps every memory canonical (R381). -/
theorem State.memWf_entered (status : Byte) (vec : Word) (h : s.memWf = true) : (entered status vec s).memWf = true := by
  unfold entered
  exact State.memWf_pushed (State.memWf_pushed (State.memWf_pushed h))

/-- A constructed machine's memories are canonical (R411). -/
theorem State.memWf_construct (ps : Params) {im : Image} (mi : MemInit) (h : im.wellFormed = true) :
    (construct ps im mi).memWf = true := by
  have hl : im.prg.length = im.prgBanks * 16384 ∧ im.chr.length = im.chrBanks * 8192 := by
    unfold Image.wellFormed Image.check at h
    split at h
    · simp at h
    · split at h
      · simp at h
      · split at h
        · simp at h
        · omega
  have ht : ∀ {w : Nat} (n : Nat) (l : List (BitVec w)), (Mem.ofList (l.take n)).wf n = true :=
    fun n l => Mem.wf_ofList (by rw [List.length_take]; omega)
  refine State.memWf_iff.mpr ⟨Bus.memWf_iff.mpr ⟨ht _ _, ht _ _⟩, Ppu.memWf_iff.mpr ⟨ht _ _, ht _ _, ht _ _, ht _ _⟩,
    Cart.memWf_iff.mpr ⟨Mem.wf_ofList ?_, Mem.wf_ofList ?_⟩⟩
  · exact Nat.le_of_eq hl.1
  · change im.chr.length ≤ if im.chrBanks = 0 then 8192 else im.chrBanks * 8192
    split
    · omega
    · omega

end Sys2Proof.Machine
end

