-- ==== Sys2Proof/Laws/Clock.lean ====
section
/-! SUPPORT. What fetching an instruction, one dot and one clock can do. -/

namespace Sys2Proof.Machine

variable (s : State)

/-- A fetched byte is the one an open bus read returns, and PC steps (R109). -/
theorem fetchByte_eq (h : Blocked s.cart s.cpu.pc = false) :
    fetchByte s = .next (readByte s.cpu.pc s, (afterRead s.cpu.pc s).setPc (s.cpu.pc + 1)) := by
  rw [fetchByte, busRead_open _ _ h, andThen_next, afterRead_cpu]

theorem fetchByte_blocked (h : Blocked s.cart s.cpu.pc = true) : fetchByte s = .fault (.unimplemented s.cpu.pc) := by
  rw [fetchByte, busRead_blocked _ _ h, andThen_fault]

theorem codeOpen_congr {c c' : Cart} (h : c' = c) (n : Nat) (a : Word) : codeOpen c' n a = codeOpen c n a := by rw [h]

theorem bytesAt_setPc (n : Nat) (a v : Word) :
    bytesAt n a (s.setPc v) = ((bytesAt n a s).1, (bytesAt n a s).2.setPc v) := by
  induction n generalizing a s with
  | zero => rfl
  | succ n ih => simp only [bytesAt, readByte_setPc, afterRead_setPc, ih]

/-- Fetching `n` bytes is `n` bus reads in address order (R109). -/
theorem fetchBytes_eq (n : Nat) (h : codeOpen s.cart n s.cpu.pc = true) :
    fetchBytes n s =
      .next ((bytesAt n s.cpu.pc s).1, (bytesAt n s.cpu.pc s).2.setPc (s.cpu.pc + BitVec.ofNat 16 n)) := by
  induction n generalizing s with
  | zero => simp [fetchBytes, bytesAt, State.setPc, State.mapCpu]
  | succ n ih =>
    simp only [codeOpen, Bool.and_eq_true, Bool.not_eq_true'] at h
    rw [fetchBytes, fetchByte_eq _ h.1, andThen_next]
    dsimp only
    rw [ih _ (by simpa using h.2), andThen_next]
    simp only [State.setPc_cpu_pc, bytesAt_setPc, bytesAt]
    have h1 : s.cpu.pc + 1 + BitVec.ofNat 16 n = s.cpu.pc + BitVec.ofNat 16 (n + 1) := by
      rw [BitVec.ofNat_add, BitVec.add_assoc, BitVec.add_comm (BitVec.ofNat 16 n)]; rfl
    rw [h1]
    rfl

/-- A dot without a request at its end (R245). -/
theorem ppuDot_quiet (h : (ppuTick s.cart s.ppu).nmiOut = false) :
    ppuDot s = .next { s with ppu := ppuTick s.cart s.ppu } := by simp [ppuDot, h]

/-- A dot that ends with a request delivers it (R245, R382). -/
theorem ppuDot_nmi (h : (ppuTick s.cart s.ppu).nmiOut = true) :
    ppuDot s = cpuNmi { s with ppu := { ppuTick s.cart s.ppu with nmiOut := false } } := by simp [ppuDot, h]

/-- A dot always answers a next state: an NMI entry cannot fault (R67, R381). -/
theorem ppuDot_next : ∃ t, ppuDot s = .next t ∧ t.cart = s.cart ∧ t.params = s.params ∧ t.ppu.nmiOut = false ∧
    t.bus = { s.bus with ram := t.bus.ram } ∧ t.ppu = { ppuTick s.cart s.ppu with nmiOut := false } := by
  cases h : (ppuTick s.cart s.ppu).nmiOut with
  | false =>
    refine ⟨_, ppuDot_quiet s h, rfl, rfl, h, rfl, ?_⟩
    rw [← h]
  | true => exact ⟨_, (ppuDot_nmi s h).trans (cpuNmi_eq _), rfl, rfl, rfl, rfl, rfl⟩

/-- The three dots of a clock always answer a next state, and leave the cartridge and the parameters alone. -/
theorem threeDots_next : ∃ t, threeDots s = .next t ∧ t.cart = s.cart ∧ t.params = s.params ∧ t.ppu.nmiOut = false := by
  obtain ⟨t1, h1, c1, p1, -, -, -⟩ := ppuDot_next s
  obtain ⟨t2, h2, c2, p2, -, -, -⟩ := ppuDot_next t1
  obtain ⟨t3, h3, c3, p3, n3, -, -⟩ := ppuDot_next t2
  exact ⟨t3, by rw [threeDots, h1, andThen_next, h2, andThen_next, h3], by rw [c3, c2, c1], by rw [p3, p2, p1], n3⟩

/-- A clock that owes cycles runs no instruction (R108). -/
theorem cpuClock_owing (h : s.cpu.cycles ≠ 0) : cpuClock s = .next (s.setCycles (s.cpu.cycles - 1)) := by
  simp [cpuClock, h]

/-- A clock that owes none runs one and counts one cycle down (R108). -/
theorem cpuClock_running (h : s.cpu.cycles = 0) :
    cpuClock s = andThen (runInstr s) fun t => .next (t.setCycles (t.cpu.cycles - 1)) := by simp [cpuClock, h]

set_option maxRecDepth 4000 in
/-- The opcode map is empty exactly at the reserved bytes (R93). -/
theorem lookup_isNone_all :
    ((List.range 256).all fun n =>
      (lookup (BitVec.ofNat 8 n)).isNone == decide (BitVec.ofNat 8 n ∈ reservedOpcodes)) = true := by decide

theorem lookup_isNone (op : Byte) : (lookup op).isNone = decide (op ∈ reservedOpcodes) := by
  have h := List.all_eq_true.mp lookup_isNone_all op.toNat (List.mem_range.mpr op.isLt)
  simpa using h

end Sys2Proof.Machine
end

