-- ==== Sys2Proof/Laws/Operands.lean ====
section
/-! SUPPORT. What the addressing-mode resolvers and the instruction shapes do, each in one equation: the instructions'
results are read off these, without unfolding a resolver or the bus again. -/

namespace Sys2Proof.Machine

variable (o : Operand) (s : State)

/-! ## The resolvers -/

theorem zext16_le (z : Byte) : (zext16 z).toNat ≤ 0x1FFF := by
  have := z.isLt
  rw [toNat_zext16]
  omega

theorem readByte_zeroPage (z : Byte) : readByte (zext16 z) s = s.bus.ram.read z.toNat := by
  have h := z.isLt
  rw [readByte_ram _ _ (zext16_le z), toNat_zext16, Nat.mod_eq_of_lt (by omega)]

/-- A zero-page pointer is read from RAM without side effect, whatever the cartridge (R105, R106). -/
theorem readPointer_zeroPage (z : Byte) :
    readPointer (zext16 z) (zext16 (z + 1)) s = .next (zeroPageWord z s, s) := by
  have h := z.isLt
  have h' := (z + 1).isLt
  rw [readPointer, busRead_ram _ _ (zext16_le z), andThen_next, busRead_ram _ _ (zext16_le (z + 1)), andThen_next]
  rw [toNat_zext16, toNat_zext16, Nat.mod_eq_of_lt (by omega), Nat.mod_eq_of_lt (by omega)]
  rfl

theorem crossesPage_abx (a : Word) : crossesPage (.abx a) s = pageDiffers (a + zext16 s.cpu.x) a := by
  rw [pageDiffers_eq]; rfl

theorem crossesPage_aby (a : Word) : crossesPage (.aby a) s = pageDiffers (a + zext16 s.cpu.y) a := by
  rw [pageDiffers_eq]; rfl

theorem crossesPage_izy (z : Byte) :
    crossesPage (.izy z) s = pageDiffers (zeroPageWord z s + zext16 s.cpu.y) (zeroPageWord z s) := by
  rw [pageDiffers_eq]; rfl

/-- Every resolver but the indirect one completes, sets `adr` to the effective address, and has no other effect
(R94 to R103, R105, R106). -/
theorem resolve_eq (h : o.mode ≠ .ind) : resolve o s = .next (crossesPage o s, s.setAdr (effAddr o s)) := by
  cases o with
  | ind a => exact absurd rfl h
  | abx a => rw [crossesPage_abx]; rfl
  | aby a => rw [crossesPage_aby]; rfl
  | izx z =>
    rw [resolve, readPointer_zeroPage, andThen_next]
    simp [crossesPage, indexBase, effAddr]
  | izy z => rw [resolve, readPointer_zeroPage, andThen_next, crossesPage_izy]; rfl
  | imp => simp [resolve, crossesPage, indexBase, effAddr]
  | acc => simp [resolve, crossesPage, indexBase, effAddr]
  | imm b => simp [resolve, crossesPage, indexBase, effAddr]
  | zp0 z => simp [resolve, crossesPage, indexBase, effAddr]
  | zpx z => simp [resolve, crossesPage, indexBase, effAddr]
  | zpy z => simp [resolve, crossesPage, indexBase, effAddr]
  | rel b => simp [resolve, crossesPage, indexBase, effAddr]
  | abs a => simp [resolve, crossesPage, indexBase, effAddr]

/-- The indirect resolver reads two bytes of one page, low byte first (R104). -/
theorem resolve_ind (a : Word) (h1 : Blocked s.cart a = false) (h2 : Blocked s.cart (nextInPage a) = false) :
    resolve (.ind a) s =
      .next (false, (afterRead (nextInPage a) (afterRead a s)).setAdr
        (mkWord (readByte (nextInPage a) (afterRead a s)) (readByte a s))) := by
  rw [resolve, readPointer, busRead_open _ _ h1, andThen_next]
  dsimp only
  rw [busRead_open _ _ (by rw [afterRead_cart]; exact h2), andThen_next, andThen_next]

/-- The second pointer address of R104 is the next one inside the page. -/
theorem nextInPage_eq (a : Word) : nextInPage a = mkWord (hiByte a) (loByte a + 1) := by
  apply BitVec.eq_of_toNat_eq
  have ha := a.isLt
  have h1 : (a &&& 0xFF00).toNat = a.toNat / 256 * 256 := by
    have h2 := toNat_mkWord (hiByte a) 0
    have h3 : a &&& 0xFF00 = mkWord (hiByte a) 0 := by
      apply BitVec.eq_of_getLsbD_eq
      intro j hj
      rw [getLsbD_mkWord, getLsbD_hiByte]
      have hm := pageMask_bit j hj
      simp only [BitVec.ofNat_eq_ofNat, BitVec.getLsbD_and, hm]
      by_cases h8 : j < 8
      · simp [h8]
      · have h4 : j - 8 < 8 := by omega
        have h5 : 8 + (j - 8) = j := by omega
        simp [h8, h4, h5]
        omega
    rw [h3, h2, toNat_hiByte]
    simp
  have h2 : ((a + 1) &&& 0x00FF).toNat = (a.toNat + 1) % 256 := by
    have h3 : (0x00FF : Word).toNat = 2 ^ 8 - 1 := by decide
    have h4 : (1 : Word).toNat = 1 := by decide
    rw [BitVec.toNat_and, h3, Nat.and_two_pow_sub_one_eq_mod, BitVec.toNat_add, h4]
    omega
  have h4 : (nextInPage a).toNat = a.toNat / 256 * 256 + (a.toNat + 1) % 256 := by
    rw [nextInPage, BitVec.toNat_or, h1, h2]
    have := Nat.two_pow_add_eq_or_of_lt (i := 8) (b := (a.toNat + 1) % 256) (Nat.mod_lt _ (by decide)) (a.toNat / 256)
    rw [Nat.mul_comm, ← this]
  rw [h4, toNat_mkWord, toNat_hiByte, BitVec.toNat_add, toNat_loByte]
  simp

@[simp] theorem effAddr_setCycles (n : Nat) : effAddr o (s.setCycles n) = effAddr o s := by
  cases o <;> simp [effAddr, zeroPageWord]

@[simp] theorem crossesPage_setCycles (n : Nat) : crossesPage o (s.setCycles n) = crossesPage o s := by
  unfold crossesPage
  rw [effAddr_setCycles]
  cases o <;> simp [indexBase, effAddr, zeroPageWord]

/-! ## The shapes -/

/-- The operand is a byte of memory, by its mode. -/
def inMemory : Operand → Bool
  | .imp | .acc | .imm _ | .rel _ | .ind _ => false
  | .zp0 _ | .zpx _ | .zpy _ | .abs _ | .abx _ | .aby _ | .izx _ | .izy _ => true

/-- The operand is a byte of memory. -/
def InMemory (o : Operand) : Prop := inMemory o = true

/-- The operand is a byte of memory or an immediate. -/
def ReadsByte (o : Operand) : Prop := o.mode = .imm ∨ InMemory o

variable {o} {s}

theorem InMemory.operandValue (h : InMemory o) : operandValue o s = readByte (effAddr o s) s := by
  cases o <;> simp only [InMemory, inMemory, Bool.false_eq_true] at h <;> rfl

theorem InMemory.afterOperand (h : InMemory o) :
    afterOperand o s = (afterRead (effAddr o s) s).setAdr (effAddr o s) := by
  cases o <;> simp only [InMemory, inMemory, Bool.false_eq_true] at h <;> rfl

theorem InMemory.operandOpen (h : InMemory o) : OperandOpen o s = !Blocked s.cart (effAddr o s) := by
  cases o <;> simp only [InMemory, inMemory, Bool.false_eq_true] at h <;> rfl

theorem InMemory.readOperand (h : InMemory o) : readOperand o s = busRead s.cpu.adr s := by
  cases o <;> simp only [InMemory, inMemory, Bool.false_eq_true] at h <;> rfl

theorem InMemory.writeOperand (h : InMemory o) (v : Byte) : writeOperand o v s = busWrite s.cpu.adr v s := by
  cases o <;> simp only [InMemory, inMemory, Bool.false_eq_true] at h <;> rfl

theorem InMemory.mode_ne_ind (h : InMemory o) : o.mode ≠ .ind := by
  cases o <;> simp only [InMemory, inMemory, Bool.false_eq_true] at h <;> simp [Operand.mode]

theorem InMemory.readsByte (h : InMemory o) : ReadsByte o := .inr h

theorem ReadsByte.cases (h : ReadsByte o) : (∃ b, o = .imm b) ∨ InMemory o := by
  rcases h with h | h
  · cases o <;> simp only [Operand.mode, reduceCtorEq] at h
    exact .inl ⟨_, rfl⟩
  · exact .inr h

theorem ReadsByte.mode_ne_ind (h : ReadsByte o) : o.mode ≠ .ind := by
  rcases h.cases with ⟨b, rfl⟩ | h
  · simp [Operand.mode]
  · exact h.mode_ne_ind

variable (o) (s)

/-- Reading the operand after resolving it (R96, section 3 of 30_encoding.md). -/
theorem readOperand_eq (ho : ReadsByte o) (h : OperandOpen o s = true) :
    readOperand o (s.setAdr (effAddr o s)) = .next (operandValue o s, afterOperand o s) := by
  rcases ho.cases with ⟨b, rfl⟩ | hm
  · rfl
  · rw [hm.operandOpen, Bool.not_eq_true'] at h
    rw [hm.readOperand, State.setAdr_cpu_adr, busRead_open _ _ (by simpa using h), readByte_setAdr, afterRead_setAdr,
      hm.operandValue, hm.afterOperand]

@[simp] theorem OperandOpen_setCycles (n : Nat) : OperandOpen o (s.setCycles n) = OperandOpen o s := by
  cases hm : inMemory o with
  | true =>
    have hm : InMemory o := hm
    rw [hm.operandOpen, hm.operandOpen, effAddr_setCycles, State.setCycles_cart]
  | false => cases o <;> simp only [inMemory, Bool.true_eq_false] at hm <;> rfl

@[simp] theorem operandValue_setCycles (n : Nat) : operandValue o (s.setCycles n) = operandValue o s := by
  cases hm : inMemory o with
  | true =>
    have hm : InMemory o := hm
    rw [hm.operandValue, hm.operandValue, effAddr_setCycles, readByte_setCycles]
  | false => cases o <;> simp only [inMemory, Bool.true_eq_false] at hm <;> simp [operandValue]

@[simp] theorem afterOperand_setCycles (n : Nat) :
    afterOperand o (s.setCycles n) = (afterOperand o s).setCycles n := by
  cases hm : inMemory o with
  | true =>
    have hm : InMemory o := hm
    rw [hm.afterOperand, hm.afterOperand, effAddr_setCycles, afterRead_setCycles]; rfl
  | false =>
    cases o <;> simp only [inMemory, Bool.true_eq_false] at hm
    · rfl
    · rfl
    · rfl
    · rfl
    · rfl

theorem afterOperand_cpu : (afterOperand o s).cpu = { s.cpu with adr := (afterOperand o s).cpu.adr } := by
  cases hm : inMemory o with
  | true =>
    have hm : InMemory o := hm
    rw [hm.afterOperand]; simp only [State.setAdr, State.mapCpu, afterRead_cpu]
  | false =>
    cases o <;> simp only [inMemory, Bool.true_eq_false] at hm
    · rfl
    · rfl
    · rfl
    · rfl
    · rfl

@[simp] theorem afterOperand_cart : (afterOperand o s).cart = s.cart := by
  cases o <;> simp [afterOperand]

@[simp] theorem afterOperand_params : (afterOperand o s).params = s.params := by
  cases o <;> simp [afterOperand]

/-- An instruction that reads a value completes with its effect and its cycles (R107, R108). -/
theorem readOp_eq (base : Nat) (plus : Bool) (f : Byte → Cpu → Cpu) (ho : ReadsByte o)
    (h : OperandOpen o s = true) (hf : ∀ m c n, f m { c with cycles := n } = { f m c with cycles := n }) :
    readOp base plus o f s =
      .next (((afterOperand o s).mapCpu (f (operandValue o s))).setCycles (base + (plus && crossesPage o s).toNat)) := by
  rw [readOp, resolve_eq _ _ ho.mode_ne_ind, andThen_next, readOperand_eq _ _ ho (by simpa using h), andThen_next]
  dsimp only
  rw [operandValue_setCycles, afterOperand_setCycles, crossesPage_setCycles]
  simp only [State.addCycles, State.setCycles, State.mapCpu]
  rw [hf (operandValue o s) (afterOperand o s).cpu base]

theorem readOp_blocked (base : Nat) (plus : Bool) (f : Byte → Cpu → Cpu) (hm : InMemory o)
    (hb : Blocked s.cart (effAddr o s) = true) : readOp base plus o f s = .fault (.unimplemented (effAddr o s)) := by
  rw [readOp, resolve_eq _ _ hm.mode_ne_ind, andThen_next, hm.readOperand, State.setAdr_cpu_adr, effAddr_setCycles,
    busRead_blocked _ _ (by simpa using hb), andThen_fault]

/-- A store completes with one write (R134). -/
theorem storeOp_eq (base : Nat) (src : Cpu → Byte) (hm : InMemory o) (h : OperandOpen o s = true)
    (hs : ∀ c n v, src { c with cycles := n, adr := v } = src c) :
    storeOp base o src s =
      .next ((afterWrite (effAddr o s) (src s.cpu) (s.setAdr (effAddr o s))).setCycles base) := by
  rw [hm.operandOpen, Bool.not_eq_true'] at h
  rw [storeOp, resolve_eq _ _ hm.mode_ne_ind, andThen_next]
  have h5 : src ((s.setCycles base).setAdr (effAddr o s)).cpu = src s.cpu := hs s.cpu base (effAddr o s)
  rw [State.setAdr_cpu_adr, effAddr_setCycles, h5, busWrite_open _ _ _ (by simpa using h), afterWrite_setAdr,
    afterWrite_setAdr, afterWrite_setCycles]
  rfl

theorem storeOp_blocked (base : Nat) (src : Cpu → Byte) (hm : InMemory o)
    (hb : Blocked s.cart (effAddr o s) = true) : storeOp base o src s = .fault (.unimplemented (effAddr o s)) := by
  rw [storeOp, resolve_eq _ _ hm.mode_ne_ind, andThen_next, State.setAdr_cpu_adr, effAddr_setCycles,
    busWrite_blocked _ _ _ (by simpa using hb)]

/-- A read-modify-write instruction completes with one read and one write at the same address (R64, R178). -/
theorem modifyOp_eq (base : Nat) (f : Byte → Byte → Byte × Byte) (hm : InMemory o) (h : OperandOpen o s = true) :
    modifyOp base o f s =
      .next (((afterWrite (effAddr o s) (f (operandValue o s) s.cpu.p).1 (afterOperand o s)).setP
        (f (operandValue o s) s.cpu.p).2).setCycles base) := by
  rw [modifyOp, resolve_eq _ _ hm.mode_ne_ind, andThen_next,
    readOperand_eq _ _ hm.readsByte (by simpa using h), andThen_next]
  dsimp only
  rw [operandValue_setCycles, afterOperand_setCycles]
  have hp : (afterOperand o s).cpu.p = s.cpu.p := by rw [afterOperand_cpu]
  have hadr : (afterOperand o s).cpu.adr = effAddr o s := by rw [hm.afterOperand, State.setAdr_cpu_adr]
  rw [hm.operandOpen, Bool.not_eq_true'] at h
  rw [State.setCycles_cpu_p, hp, hm.writeOperand, State.setCycles_cpu_adr, hadr,
    busWrite_open _ _ _ (by simpa using h), andThen_next, afterWrite_setCycles, State.setCycles_cpu_p, afterWrite_cpu, hp]
  rfl

theorem modifyOp_blocked (base : Nat) (f : Byte → Byte → Byte × Byte) (hm : InMemory o)
    (hb : Blocked s.cart (effAddr o s) = true) : modifyOp base o f s = .fault (.unimplemented (effAddr o s)) := by
  rw [modifyOp, resolve_eq _ _ hm.mode_ne_ind, andThen_next, hm.readOperand, State.setAdr_cpu_adr, effAddr_setCycles,
    busRead_blocked _ _ (by simpa using hb), andThen_fault]

theorem registerOp_eq (base : Nat) (f : Cpu → Cpu) (hf : ∀ c n, f { c with cycles := n } = { f c with cycles := n }) :
    registerOp base f s = .next ((s.mapCpu f).setCycles base) := by
  simp only [registerOp, State.setCycles, State.mapCpu]
  rw [hf s.cpu base]

/-- The accumulator form reads A and writes A (R95, R178). -/
theorem modifyOp_acc (base : Nat) (f : Byte → Byte → Byte × Byte) :
    modifyOp base .acc f s =
      .next ((s.mapCpu fun c => { c with a := (f c.a c.p).1, p := (f c.a c.p).2 }).setCycles base) := rfl

/-- A branch whose condition holds goes to its target and costs 3 cycles, 4 to another page (R193). -/
theorem branchOp_taken (cond : Byte → Bool) (off : Byte) (s : State) (h : cond s.cpu.p = true) :
    branchOp cond off s =
      .next ((s.setPc (s.cpu.pc + sext8 off)).setCycles
        (if pageDiffers (s.cpu.pc + sext8 off) s.cpu.pc then 4 else 3)) := by
  simp only [branchOp, State.setCycles, State.setPc, State.addCycles, State.mapCpu, h, if_true]
  by_cases hp : pageDiffers (s.cpu.pc + sext8 off) s.cpu.pc = true <;> simp [hp]

/-- A branch whose condition fails costs 2 cycles and does nothing else (R193). -/
theorem branchOp_untaken (cond : Byte → Bool) (off : Byte) (s : State) (h : cond s.cpu.p = false) :
    branchOp cond off s = .next (s.setCycles 2) := by
  simp [branchOp, State.setCycles, State.mapCpu, h]

end Sys2Proof.Machine
end

