-- ==== Sys2Proof/Laws/PerInstr.lean ====
section
/-! SUPPORT. One lemma per instruction about its encoding as syntax: its bytes are as many as its mode says, and the
opcode map gives its opcode byte the same number of operand bytes (30_encoding.md R90, R91). -/

namespace Sys2Proof.Laws.EncodingShape

/-- The number of operand bytes the opcode map gives an opcode byte (R90). -/
def operandBytesOf (opcode : Byte) : Option Nat := (lookup opcode).map Entry.operandBytes

/-- An instruction's bytes are as many as its length, and the opcode map agrees with that (R90, R91). -/
def Statement (i : Instr) : Prop :=
  (encode i).length = i.length ∧ operandBytesOf i.row.opcode = some (i.length - 1)

theorem ldaIzx (z : Byte) : Statement (Instr.ldaIzx z) := ⟨rfl, (by decide : operandBytesOf 0xA1 = some 1)⟩
theorem ldaZp0 (z : Byte) : Statement (Instr.ldaZp0 z) := ⟨rfl, (by decide : operandBytesOf 0xA5 = some 1)⟩
theorem ldaImm (b : Byte) : Statement (Instr.ldaImm b) := ⟨rfl, (by decide : operandBytesOf 0xA9 = some 1)⟩
theorem ldaAbs (a : Word) : Statement (Instr.ldaAbs a) := ⟨rfl, (by decide : operandBytesOf 0xAD = some 2)⟩
theorem ldaIzy (z : Byte) : Statement (Instr.ldaIzy z) := ⟨rfl, (by decide : operandBytesOf 0xB1 = some 1)⟩
theorem ldaZpx (z : Byte) : Statement (Instr.ldaZpx z) := ⟨rfl, (by decide : operandBytesOf 0xB5 = some 1)⟩
theorem ldaAby (a : Word) : Statement (Instr.ldaAby a) := ⟨rfl, (by decide : operandBytesOf 0xB9 = some 2)⟩
theorem ldaAbx (a : Word) : Statement (Instr.ldaAbx a) := ⟨rfl, (by decide : operandBytesOf 0xBD = some 2)⟩
theorem ldxImm (b : Byte) : Statement (Instr.ldxImm b) := ⟨rfl, (by decide : operandBytesOf 0xA2 = some 1)⟩
theorem ldxZp0 (z : Byte) : Statement (Instr.ldxZp0 z) := ⟨rfl, (by decide : operandBytesOf 0xA6 = some 1)⟩
theorem ldxAbs (a : Word) : Statement (Instr.ldxAbs a) := ⟨rfl, (by decide : operandBytesOf 0xAE = some 2)⟩
theorem ldxZpy (z : Byte) : Statement (Instr.ldxZpy z) := ⟨rfl, (by decide : operandBytesOf 0xB6 = some 1)⟩
theorem ldxAby (a : Word) : Statement (Instr.ldxAby a) := ⟨rfl, (by decide : operandBytesOf 0xBE = some 2)⟩
theorem ldyImm (b : Byte) : Statement (Instr.ldyImm b) := ⟨rfl, (by decide : operandBytesOf 0xA0 = some 1)⟩
theorem ldyZp0 (z : Byte) : Statement (Instr.ldyZp0 z) := ⟨rfl, (by decide : operandBytesOf 0xA4 = some 1)⟩
theorem ldyAbs (a : Word) : Statement (Instr.ldyAbs a) := ⟨rfl, (by decide : operandBytesOf 0xAC = some 2)⟩
theorem ldyZpx (z : Byte) : Statement (Instr.ldyZpx z) := ⟨rfl, (by decide : operandBytesOf 0xB4 = some 1)⟩
theorem ldyAbx (a : Word) : Statement (Instr.ldyAbx a) := ⟨rfl, (by decide : operandBytesOf 0xBC = some 2)⟩
theorem staIzx (z : Byte) : Statement (Instr.staIzx z) := ⟨rfl, (by decide : operandBytesOf 0x81 = some 1)⟩
theorem staZp0 (z : Byte) : Statement (Instr.staZp0 z) := ⟨rfl, (by decide : operandBytesOf 0x85 = some 1)⟩
theorem staAbs (a : Word) : Statement (Instr.staAbs a) := ⟨rfl, (by decide : operandBytesOf 0x8D = some 2)⟩
theorem staIzy (z : Byte) : Statement (Instr.staIzy z) := ⟨rfl, (by decide : operandBytesOf 0x91 = some 1)⟩
theorem staZpx (z : Byte) : Statement (Instr.staZpx z) := ⟨rfl, (by decide : operandBytesOf 0x95 = some 1)⟩
theorem staAby (a : Word) : Statement (Instr.staAby a) := ⟨rfl, (by decide : operandBytesOf 0x99 = some 2)⟩
theorem staAbx (a : Word) : Statement (Instr.staAbx a) := ⟨rfl, (by decide : operandBytesOf 0x9D = some 2)⟩
theorem stxZp0 (z : Byte) : Statement (Instr.stxZp0 z) := ⟨rfl, (by decide : operandBytesOf 0x86 = some 1)⟩
theorem stxAbs (a : Word) : Statement (Instr.stxAbs a) := ⟨rfl, (by decide : operandBytesOf 0x8E = some 2)⟩
theorem stxZpy (z : Byte) : Statement (Instr.stxZpy z) := ⟨rfl, (by decide : operandBytesOf 0x96 = some 1)⟩
theorem styZp0 (z : Byte) : Statement (Instr.styZp0 z) := ⟨rfl, (by decide : operandBytesOf 0x84 = some 1)⟩
theorem styAbs (a : Word) : Statement (Instr.styAbs a) := ⟨rfl, (by decide : operandBytesOf 0x8C = some 2)⟩
theorem styZpx (z : Byte) : Statement (Instr.styZpx z) := ⟨rfl, (by decide : operandBytesOf 0x94 = some 1)⟩
theorem tax : Statement Instr.tax := ⟨rfl, (by decide : operandBytesOf 0xAA = some 0)⟩
theorem tay : Statement Instr.tay := ⟨rfl, (by decide : operandBytesOf 0xA8 = some 0)⟩
theorem txa : Statement Instr.txa := ⟨rfl, (by decide : operandBytesOf 0x8A = some 0)⟩
theorem tya : Statement Instr.tya := ⟨rfl, (by decide : operandBytesOf 0x98 = some 0)⟩
theorem tsx : Statement Instr.tsx := ⟨rfl, (by decide : operandBytesOf 0xBA = some 0)⟩
theorem txs : Statement Instr.txs := ⟨rfl, (by decide : operandBytesOf 0x9A = some 0)⟩
theorem adcIzx (z : Byte) : Statement (Instr.adcIzx z) := ⟨rfl, (by decide : operandBytesOf 0x61 = some 1)⟩
theorem adcZp0 (z : Byte) : Statement (Instr.adcZp0 z) := ⟨rfl, (by decide : operandBytesOf 0x65 = some 1)⟩
theorem adcImm (b : Byte) : Statement (Instr.adcImm b) := ⟨rfl, (by decide : operandBytesOf 0x69 = some 1)⟩
theorem adcAbs (a : Word) : Statement (Instr.adcAbs a) := ⟨rfl, (by decide : operandBytesOf 0x6D = some 2)⟩
theorem adcIzy (z : Byte) : Statement (Instr.adcIzy z) := ⟨rfl, (by decide : operandBytesOf 0x71 = some 1)⟩
theorem adcZpx (z : Byte) : Statement (Instr.adcZpx z) := ⟨rfl, (by decide : operandBytesOf 0x75 = some 1)⟩
theorem adcAby (a : Word) : Statement (Instr.adcAby a) := ⟨rfl, (by decide : operandBytesOf 0x79 = some 2)⟩
theorem adcAbx (a : Word) : Statement (Instr.adcAbx a) := ⟨rfl, (by decide : operandBytesOf 0x7D = some 2)⟩
theorem sbcIzx (z : Byte) : Statement (Instr.sbcIzx z) := ⟨rfl, (by decide : operandBytesOf 0xE1 = some 1)⟩
theorem sbcZp0 (z : Byte) : Statement (Instr.sbcZp0 z) := ⟨rfl, (by decide : operandBytesOf 0xE5 = some 1)⟩
theorem sbcImm (b : Byte) : Statement (Instr.sbcImm b) := ⟨rfl, (by decide : operandBytesOf 0xE9 = some 1)⟩
theorem sbcAbs (a : Word) : Statement (Instr.sbcAbs a) := ⟨rfl, (by decide : operandBytesOf 0xED = some 2)⟩
theorem sbcIzy (z : Byte) : Statement (Instr.sbcIzy z) := ⟨rfl, (by decide : operandBytesOf 0xF1 = some 1)⟩
theorem sbcZpx (z : Byte) : Statement (Instr.sbcZpx z) := ⟨rfl, (by decide : operandBytesOf 0xF5 = some 1)⟩
theorem sbcAby (a : Word) : Statement (Instr.sbcAby a) := ⟨rfl, (by decide : operandBytesOf 0xF9 = some 2)⟩
theorem sbcAbx (a : Word) : Statement (Instr.sbcAbx a) := ⟨rfl, (by decide : operandBytesOf 0xFD = some 2)⟩
theorem cmpIzx (z : Byte) : Statement (Instr.cmpIzx z) := ⟨rfl, (by decide : operandBytesOf 0xC1 = some 1)⟩
theorem cmpZp0 (z : Byte) : Statement (Instr.cmpZp0 z) := ⟨rfl, (by decide : operandBytesOf 0xC5 = some 1)⟩
theorem cmpImm (b : Byte) : Statement (Instr.cmpImm b) := ⟨rfl, (by decide : operandBytesOf 0xC9 = some 1)⟩
theorem cmpAbs (a : Word) : Statement (Instr.cmpAbs a) := ⟨rfl, (by decide : operandBytesOf 0xCD = some 2)⟩
theorem cmpIzy (z : Byte) : Statement (Instr.cmpIzy z) := ⟨rfl, (by decide : operandBytesOf 0xD1 = some 1)⟩
theorem cmpZpx (z : Byte) : Statement (Instr.cmpZpx z) := ⟨rfl, (by decide : operandBytesOf 0xD5 = some 1)⟩
theorem cmpAby (a : Word) : Statement (Instr.cmpAby a) := ⟨rfl, (by decide : operandBytesOf 0xD9 = some 2)⟩
theorem cmpAbx (a : Word) : Statement (Instr.cmpAbx a) := ⟨rfl, (by decide : operandBytesOf 0xDD = some 2)⟩
theorem cpxImm (b : Byte) : Statement (Instr.cpxImm b) := ⟨rfl, (by decide : operandBytesOf 0xE0 = some 1)⟩
theorem cpxZp0 (z : Byte) : Statement (Instr.cpxZp0 z) := ⟨rfl, (by decide : operandBytesOf 0xE4 = some 1)⟩
theorem cpxAbs (a : Word) : Statement (Instr.cpxAbs a) := ⟨rfl, (by decide : operandBytesOf 0xEC = some 2)⟩
theorem cpyImm (b : Byte) : Statement (Instr.cpyImm b) := ⟨rfl, (by decide : operandBytesOf 0xC0 = some 1)⟩
theorem cpyZp0 (z : Byte) : Statement (Instr.cpyZp0 z) := ⟨rfl, (by decide : operandBytesOf 0xC4 = some 1)⟩
theorem cpyAbs (a : Word) : Statement (Instr.cpyAbs a) := ⟨rfl, (by decide : operandBytesOf 0xCC = some 2)⟩
theorem incZp0 (z : Byte) : Statement (Instr.incZp0 z) := ⟨rfl, (by decide : operandBytesOf 0xE6 = some 1)⟩
theorem incAbs (a : Word) : Statement (Instr.incAbs a) := ⟨rfl, (by decide : operandBytesOf 0xEE = some 2)⟩
theorem incZpx (z : Byte) : Statement (Instr.incZpx z) := ⟨rfl, (by decide : operandBytesOf 0xF6 = some 1)⟩
theorem incAbx (a : Word) : Statement (Instr.incAbx a) := ⟨rfl, (by decide : operandBytesOf 0xFE = some 2)⟩
theorem inx : Statement Instr.inx := ⟨rfl, (by decide : operandBytesOf 0xE8 = some 0)⟩
theorem iny : Statement Instr.iny := ⟨rfl, (by decide : operandBytesOf 0xC8 = some 0)⟩
theorem decZp0 (z : Byte) : Statement (Instr.decZp0 z) := ⟨rfl, (by decide : operandBytesOf 0xC6 = some 1)⟩
theorem decAbs (a : Word) : Statement (Instr.decAbs a) := ⟨rfl, (by decide : operandBytesOf 0xCE = some 2)⟩
theorem decZpx (z : Byte) : Statement (Instr.decZpx z) := ⟨rfl, (by decide : operandBytesOf 0xD6 = some 1)⟩
theorem decAbx (a : Word) : Statement (Instr.decAbx a) := ⟨rfl, (by decide : operandBytesOf 0xDE = some 2)⟩
theorem dex : Statement Instr.dex := ⟨rfl, (by decide : operandBytesOf 0xCA = some 0)⟩
theorem dey : Statement Instr.dey := ⟨rfl, (by decide : operandBytesOf 0x88 = some 0)⟩
theorem andIzx (z : Byte) : Statement (Instr.andIzx z) := ⟨rfl, (by decide : operandBytesOf 0x21 = some 1)⟩
theorem andZp0 (z : Byte) : Statement (Instr.andZp0 z) := ⟨rfl, (by decide : operandBytesOf 0x25 = some 1)⟩
theorem andImm (b : Byte) : Statement (Instr.andImm b) := ⟨rfl, (by decide : operandBytesOf 0x29 = some 1)⟩
theorem andAbs (a : Word) : Statement (Instr.andAbs a) := ⟨rfl, (by decide : operandBytesOf 0x2D = some 2)⟩
theorem andIzy (z : Byte) : Statement (Instr.andIzy z) := ⟨rfl, (by decide : operandBytesOf 0x31 = some 1)⟩
theorem andZpx (z : Byte) : Statement (Instr.andZpx z) := ⟨rfl, (by decide : operandBytesOf 0x35 = some 1)⟩
theorem andAby (a : Word) : Statement (Instr.andAby a) := ⟨rfl, (by decide : operandBytesOf 0x39 = some 2)⟩
theorem andAbx (a : Word) : Statement (Instr.andAbx a) := ⟨rfl, (by decide : operandBytesOf 0x3D = some 2)⟩
theorem oraIzx (z : Byte) : Statement (Instr.oraIzx z) := ⟨rfl, (by decide : operandBytesOf 0x01 = some 1)⟩
theorem oraZp0 (z : Byte) : Statement (Instr.oraZp0 z) := ⟨rfl, (by decide : operandBytesOf 0x05 = some 1)⟩
theorem oraImm (b : Byte) : Statement (Instr.oraImm b) := ⟨rfl, (by decide : operandBytesOf 0x09 = some 1)⟩
theorem oraAbs (a : Word) : Statement (Instr.oraAbs a) := ⟨rfl, (by decide : operandBytesOf 0x0D = some 2)⟩
theorem oraIzy (z : Byte) : Statement (Instr.oraIzy z) := ⟨rfl, (by decide : operandBytesOf 0x11 = some 1)⟩
theorem oraZpx (z : Byte) : Statement (Instr.oraZpx z) := ⟨rfl, (by decide : operandBytesOf 0x15 = some 1)⟩
theorem oraAby (a : Word) : Statement (Instr.oraAby a) := ⟨rfl, (by decide : operandBytesOf 0x19 = some 2)⟩
theorem oraAbx (a : Word) : Statement (Instr.oraAbx a) := ⟨rfl, (by decide : operandBytesOf 0x1D = some 2)⟩
theorem eorIzx (z : Byte) : Statement (Instr.eorIzx z) := ⟨rfl, (by decide : operandBytesOf 0x41 = some 1)⟩
theorem eorZp0 (z : Byte) : Statement (Instr.eorZp0 z) := ⟨rfl, (by decide : operandBytesOf 0x45 = some 1)⟩
theorem eorImm (b : Byte) : Statement (Instr.eorImm b) := ⟨rfl, (by decide : operandBytesOf 0x49 = some 1)⟩
theorem eorAbs (a : Word) : Statement (Instr.eorAbs a) := ⟨rfl, (by decide : operandBytesOf 0x4D = some 2)⟩
theorem eorIzy (z : Byte) : Statement (Instr.eorIzy z) := ⟨rfl, (by decide : operandBytesOf 0x51 = some 1)⟩
theorem eorZpx (z : Byte) : Statement (Instr.eorZpx z) := ⟨rfl, (by decide : operandBytesOf 0x55 = some 1)⟩
theorem eorAby (a : Word) : Statement (Instr.eorAby a) := ⟨rfl, (by decide : operandBytesOf 0x59 = some 2)⟩
theorem eorAbx (a : Word) : Statement (Instr.eorAbx a) := ⟨rfl, (by decide : operandBytesOf 0x5D = some 2)⟩
theorem bitZp0 (z : Byte) : Statement (Instr.bitZp0 z) := ⟨rfl, (by decide : operandBytesOf 0x24 = some 1)⟩
theorem bitAbs (a : Word) : Statement (Instr.bitAbs a) := ⟨rfl, (by decide : operandBytesOf 0x2C = some 2)⟩
theorem aslZp0 (z : Byte) : Statement (Instr.aslZp0 z) := ⟨rfl, (by decide : operandBytesOf 0x06 = some 1)⟩
theorem aslAcc : Statement Instr.aslAcc := ⟨rfl, (by decide : operandBytesOf 0x0A = some 0)⟩
theorem aslAbs (a : Word) : Statement (Instr.aslAbs a) := ⟨rfl, (by decide : operandBytesOf 0x0E = some 2)⟩
theorem aslZpx (z : Byte) : Statement (Instr.aslZpx z) := ⟨rfl, (by decide : operandBytesOf 0x16 = some 1)⟩
theorem aslAbx (a : Word) : Statement (Instr.aslAbx a) := ⟨rfl, (by decide : operandBytesOf 0x1E = some 2)⟩
theorem lsrZp0 (z : Byte) : Statement (Instr.lsrZp0 z) := ⟨rfl, (by decide : operandBytesOf 0x46 = some 1)⟩
theorem lsrAcc : Statement Instr.lsrAcc := ⟨rfl, (by decide : operandBytesOf 0x4A = some 0)⟩
theorem lsrAbs (a : Word) : Statement (Instr.lsrAbs a) := ⟨rfl, (by decide : operandBytesOf 0x4E = some 2)⟩
theorem lsrZpx (z : Byte) : Statement (Instr.lsrZpx z) := ⟨rfl, (by decide : operandBytesOf 0x56 = some 1)⟩
theorem lsrAbx (a : Word) : Statement (Instr.lsrAbx a) := ⟨rfl, (by decide : operandBytesOf 0x5E = some 2)⟩
theorem rolZp0 (z : Byte) : Statement (Instr.rolZp0 z) := ⟨rfl, (by decide : operandBytesOf 0x26 = some 1)⟩
theorem rolAcc : Statement Instr.rolAcc := ⟨rfl, (by decide : operandBytesOf 0x2A = some 0)⟩
theorem rolAbs (a : Word) : Statement (Instr.rolAbs a) := ⟨rfl, (by decide : operandBytesOf 0x2E = some 2)⟩
theorem rolZpx (z : Byte) : Statement (Instr.rolZpx z) := ⟨rfl, (by decide : operandBytesOf 0x36 = some 1)⟩
theorem rolAbx (a : Word) : Statement (Instr.rolAbx a) := ⟨rfl, (by decide : operandBytesOf 0x3E = some 2)⟩
theorem rorZp0 (z : Byte) : Statement (Instr.rorZp0 z) := ⟨rfl, (by decide : operandBytesOf 0x66 = some 1)⟩
theorem rorAcc : Statement Instr.rorAcc := ⟨rfl, (by decide : operandBytesOf 0x6A = some 0)⟩
theorem rorAbs (a : Word) : Statement (Instr.rorAbs a) := ⟨rfl, (by decide : operandBytesOf 0x6E = some 2)⟩
theorem rorZpx (z : Byte) : Statement (Instr.rorZpx z) := ⟨rfl, (by decide : operandBytesOf 0x76 = some 1)⟩
theorem rorAbx (a : Word) : Statement (Instr.rorAbx a) := ⟨rfl, (by decide : operandBytesOf 0x7E = some 2)⟩
theorem jmpAbs (a : Word) : Statement (Instr.jmpAbs a) := ⟨rfl, (by decide : operandBytesOf 0x4C = some 2)⟩
theorem jmpInd (a : Word) : Statement (Instr.jmpInd a) := ⟨rfl, (by decide : operandBytesOf 0x6C = some 2)⟩
theorem jsr (a : Word) : Statement (Instr.jsr a) := ⟨rfl, (by decide : operandBytesOf 0x20 = some 2)⟩
theorem rts : Statement Instr.rts := ⟨rfl, (by decide : operandBytesOf 0x60 = some 0)⟩
theorem bcc (off : Byte) : Statement (Instr.bcc off) := ⟨rfl, (by decide : operandBytesOf 0x90 = some 1)⟩
theorem bcs (off : Byte) : Statement (Instr.bcs off) := ⟨rfl, (by decide : operandBytesOf 0xB0 = some 1)⟩
theorem beq (off : Byte) : Statement (Instr.beq off) := ⟨rfl, (by decide : operandBytesOf 0xF0 = some 1)⟩
theorem bne (off : Byte) : Statement (Instr.bne off) := ⟨rfl, (by decide : operandBytesOf 0xD0 = some 1)⟩
theorem bmi (off : Byte) : Statement (Instr.bmi off) := ⟨rfl, (by decide : operandBytesOf 0x30 = some 1)⟩
theorem bpl (off : Byte) : Statement (Instr.bpl off) := ⟨rfl, (by decide : operandBytesOf 0x10 = some 1)⟩
theorem bvc (off : Byte) : Statement (Instr.bvc off) := ⟨rfl, (by decide : operandBytesOf 0x50 = some 1)⟩
theorem bvs (off : Byte) : Statement (Instr.bvs off) := ⟨rfl, (by decide : operandBytesOf 0x70 = some 1)⟩
theorem pha : Statement Instr.pha := ⟨rfl, (by decide : operandBytesOf 0x48 = some 0)⟩
theorem php : Statement Instr.php := ⟨rfl, (by decide : operandBytesOf 0x08 = some 0)⟩
theorem pla : Statement Instr.pla := ⟨rfl, (by decide : operandBytesOf 0x68 = some 0)⟩
theorem plp : Statement Instr.plp := ⟨rfl, (by decide : operandBytesOf 0x28 = some 0)⟩
theorem clc : Statement Instr.clc := ⟨rfl, (by decide : operandBytesOf 0x18 = some 0)⟩
theorem sec : Statement Instr.sec := ⟨rfl, (by decide : operandBytesOf 0x38 = some 0)⟩
theorem cli : Statement Instr.cli := ⟨rfl, (by decide : operandBytesOf 0x58 = some 0)⟩
theorem sei : Statement Instr.sei := ⟨rfl, (by decide : operandBytesOf 0x78 = some 0)⟩
theorem cld : Statement Instr.cld := ⟨rfl, (by decide : operandBytesOf 0xD8 = some 0)⟩
theorem sed : Statement Instr.sed := ⟨rfl, (by decide : operandBytesOf 0xF8 = some 0)⟩
theorem clv : Statement Instr.clv := ⟨rfl, (by decide : operandBytesOf 0xB8 = some 0)⟩
theorem nop : Statement Instr.nop := ⟨rfl, (by decide : operandBytesOf 0xEA = some 0)⟩
theorem brk : Statement Instr.brk := ⟨rfl, (by decide : operandBytesOf 0x00 = some 0)⟩
theorem rti : Statement Instr.rti := ⟨rfl, (by decide : operandBytesOf 0x40 = some 0)⟩

end Sys2Proof.Laws.EncodingShape
end

