-- ==== Sys2Proof/Tests/Slice0.lean ====
section
/-! SUPPORT. Tests: the checks of well-formedness, the decoding of every constructor from words written out from the
encodings of 30_encoding.md R113, worked examples of 95_test_vectors.md (expected results are the spec's), and for each
obligation with hypotheses a state and operands that meet them. -/

namespace Sys2Proof.Tests

open Sys2Proof.Machine

/-! ## Well-formedness: an ill-formed term for each check -/

theorem test_params_default : Params.default.wellFormed = true := by decide

/-- R8: bit 5 of `P_RESET` is 1. -/
theorem test_params_bit5_clear : (Params.mk 0x04 7 7 Params.default.prg32).wellFormed = false := by decide

/-- R8: bit 4 of `P_RESET` is 0. -/
theorem test_params_bit4_set : (Params.mk 0x34 7 7 Params.default.prg32).wellFormed = false := by decide

/-- R333: an unsupported mapper number. -/
theorem test_image_mapper : (Image.mk 1 [] 0 [] 0x40 .horizontal).check = some (.unsupportedMapper 0x40) := by decide

/-- R333: no PRG bank. -/
theorem test_image_no_prg : (Image.mk 0 [] 0 [] 0 .vertical).check = some .noPrg := by decide

/-- R333: fewer bytes than the bank count says. -/
theorem test_image_short : (Image.mk 1 [0x00, 0x01] 0 [] 1 .horizontal).check = some .shortFile := by decide

/-- R333: fewer CHR bytes than the bank count says, and CHR bytes where there is CHR RAM. -/
theorem test_image_chr (prg : List Byte) (h : prg.length = 16384) :
    (Image.mk 1 prg 1 [0x00] 0 .horizontal).check = some .shortFile ∧
      (Image.mk 1 prg 0 [0x00] 0 .horizontal).check = some .shortFile ∧
      (Image.mk 1 prg 0 [] 1 .horizontal).check = none := by
  simp [Image.check, h]

/-- A byte sequence that is no instruction: a reserved opcode, a missing operand byte, nothing at all. -/
theorem test_bytes_refused :
    decode [0x02, 0x00, 0x00] = .error (.reserved 0x02) ∧ decode [0xFF] = .error (.reserved 0xFF) ∧
      decode [0xA9] = .error (.truncated 0xA9) ∧ decode [0xAD, 0x00] = .error (.truncated 0xAD) ∧
      decode [] = .error .empty := by
  decide

/-- The header examples of 95_test_vectors.md section 2.11 that are refused, and a missing file. -/
theorem test_rom_refused :
    parseRom none = .error .missingFile ∧
      parseRom (some [0x4E, 0x45, 0x53, 0x00, 1, 1, 0, 0, 0, 0, 0, 0, 0, 0, 0, 0]) = .error .badMagic ∧
      parseRom (some [0x4E, 0x45, 0x53, 0x1A, 1, 1]) = .error .shortFile ∧
      parseRom (some [0x4E, 0x45, 0x53, 0x1A, 1, 1, 0x20, 0, 0, 0, 0, 0, 0, 0, 0, 0]) =
        .error (.unsupportedMapper 0x02) ∧
      parseRom (some [0x4E, 0x45, 0x53, 0x1A, 1, 1, 0, 0x40, 0, 0, 0, 0, 0, 0, 0, 0]) =
        .error (.unsupportedMapper 0x40) ∧
      parseRom (some [0x4E, 0x45, 0x53, 0x1A, 0, 1, 0, 0, 0, 0, 0, 0, 0, 0, 0, 0]) = .error .noPrg := by
  decide

/-! ## Decoding: every constructor, from the words of R113

The first byte is bits 7:0. Operand bytes are 0x34 and 0x12, so an operand word is 0x1234 (R91). -/

theorem test_decode_lda :
    decodeTableWord 16 0x34A1 = some (.ldaIzx 0x34) ∧
      decodeTableWord 16 0x34A5 = some (.ldaZp0 0x34) ∧
      decodeTableWord 16 0x34A9 = some (.ldaImm 0x34) ∧
      decodeTableWord 24 0x1234AD = some (.ldaAbs 0x1234) ∧
      decodeTableWord 16 0x34B1 = some (.ldaIzy 0x34) ∧
      decodeTableWord 16 0x34B5 = some (.ldaZpx 0x34) ∧
      decodeTableWord 24 0x1234B9 = some (.ldaAby 0x1234) ∧
      decodeTableWord 24 0x1234BD = some (.ldaAbx 0x1234) := by decide

theorem test_decode_ldx :
    decodeTableWord 16 0x34A2 = some (.ldxImm 0x34) ∧
      decodeTableWord 16 0x34A6 = some (.ldxZp0 0x34) ∧
      decodeTableWord 24 0x1234AE = some (.ldxAbs 0x1234) ∧
      decodeTableWord 16 0x34B6 = some (.ldxZpy 0x34) ∧
      decodeTableWord 24 0x1234BE = some (.ldxAby 0x1234) := by decide

theorem test_decode_ldy :
    decodeTableWord 16 0x34A0 = some (.ldyImm 0x34) ∧
      decodeTableWord 16 0x34A4 = some (.ldyZp0 0x34) ∧
      decodeTableWord 24 0x1234AC = some (.ldyAbs 0x1234) ∧
      decodeTableWord 16 0x34B4 = some (.ldyZpx 0x34) ∧
      decodeTableWord 24 0x1234BC = some (.ldyAbx 0x1234) := by decide

theorem test_decode_sta :
    decodeTableWord 16 0x3481 = some (.staIzx 0x34) ∧
      decodeTableWord 16 0x3485 = some (.staZp0 0x34) ∧
      decodeTableWord 24 0x12348D = some (.staAbs 0x1234) ∧
      decodeTableWord 16 0x3491 = some (.staIzy 0x34) ∧
      decodeTableWord 16 0x3495 = some (.staZpx 0x34) ∧
      decodeTableWord 24 0x123499 = some (.staAby 0x1234) ∧
      decodeTableWord 24 0x12349D = some (.staAbx 0x1234) := by decide

theorem test_decode_stx :
    decodeTableWord 16 0x3486 = some (.stxZp0 0x34) ∧
      decodeTableWord 24 0x12348E = some (.stxAbs 0x1234) ∧
      decodeTableWord 16 0x3496 = some (.stxZpy 0x34) := by decide

theorem test_decode_sty :
    decodeTableWord 16 0x3484 = some (.styZp0 0x34) ∧
      decodeTableWord 24 0x12348C = some (.styAbs 0x1234) ∧
      decodeTableWord 16 0x3494 = some (.styZpx 0x34) := by decide

theorem test_decode_tax :
    decodeTableWord 8 0xAA = some .tax := by decide

theorem test_decode_tay :
    decodeTableWord 8 0xA8 = some .tay := by decide

theorem test_decode_txa :
    decodeTableWord 8 0x8A = some .txa := by decide

theorem test_decode_tya :
    decodeTableWord 8 0x98 = some .tya := by decide

theorem test_decode_tsx :
    decodeTableWord 8 0xBA = some .tsx := by decide

theorem test_decode_txs :
    decodeTableWord 8 0x9A = some .txs := by decide

theorem test_decode_adc :
    decodeTableWord 16 0x3461 = some (.adcIzx 0x34) ∧
      decodeTableWord 16 0x3465 = some (.adcZp0 0x34) ∧
      decodeTableWord 16 0x3469 = some (.adcImm 0x34) ∧
      decodeTableWord 24 0x12346D = some (.adcAbs 0x1234) ∧
      decodeTableWord 16 0x3471 = some (.adcIzy 0x34) ∧
      decodeTableWord 16 0x3475 = some (.adcZpx 0x34) ∧
      decodeTableWord 24 0x123479 = some (.adcAby 0x1234) ∧
      decodeTableWord 24 0x12347D = some (.adcAbx 0x1234) := by decide

theorem test_decode_sbc :
    decodeTableWord 16 0x34E1 = some (.sbcIzx 0x34) ∧
      decodeTableWord 16 0x34E5 = some (.sbcZp0 0x34) ∧
      decodeTableWord 16 0x34E9 = some (.sbcImm 0x34) ∧
      decodeTableWord 24 0x1234ED = some (.sbcAbs 0x1234) ∧
      decodeTableWord 16 0x34F1 = some (.sbcIzy 0x34) ∧
      decodeTableWord 16 0x34F5 = some (.sbcZpx 0x34) ∧
      decodeTableWord 24 0x1234F9 = some (.sbcAby 0x1234) ∧
      decodeTableWord 24 0x1234FD = some (.sbcAbx 0x1234) := by decide

theorem test_decode_cmp :
    decodeTableWord 16 0x34C1 = some (.cmpIzx 0x34) ∧
      decodeTableWord 16 0x34C5 = some (.cmpZp0 0x34) ∧
      decodeTableWord 16 0x34C9 = some (.cmpImm 0x34) ∧
      decodeTableWord 24 0x1234CD = some (.cmpAbs 0x1234) ∧
      decodeTableWord 16 0x34D1 = some (.cmpIzy 0x34) ∧
      decodeTableWord 16 0x34D5 = some (.cmpZpx 0x34) ∧
      decodeTableWord 24 0x1234D9 = some (.cmpAby 0x1234) ∧
      decodeTableWord 24 0x1234DD = some (.cmpAbx 0x1234) := by decide

theorem test_decode_cpx :
    decodeTableWord 16 0x34E0 = some (.cpxImm 0x34) ∧
      decodeTableWord 16 0x34E4 = some (.cpxZp0 0x34) ∧
      decodeTableWord 24 0x1234EC = some (.cpxAbs 0x1234) := by decide

theorem test_decode_cpy :
    decodeTableWord 16 0x34C0 = some (.cpyImm 0x34) ∧
      decodeTableWord 16 0x34C4 = some (.cpyZp0 0x34) ∧
      decodeTableWord 24 0x1234CC = some (.cpyAbs 0x1234) := by decide

theorem test_decode_inc :
    decodeTableWord 16 0x34E6 = some (.incZp0 0x34) ∧
      decodeTableWord 24 0x1234EE = some (.incAbs 0x1234) ∧
      decodeTableWord 16 0x34F6 = some (.incZpx 0x34) ∧
      decodeTableWord 24 0x1234FE = some (.incAbx 0x1234) := by decide

theorem test_decode_inx :
    decodeTableWord 8 0xE8 = some .inx := by decide

theorem test_decode_iny :
    decodeTableWord 8 0xC8 = some .iny := by decide

theorem test_decode_dec :
    decodeTableWord 16 0x34C6 = some (.decZp0 0x34) ∧
      decodeTableWord 24 0x1234CE = some (.decAbs 0x1234) ∧
      decodeTableWord 16 0x34D6 = some (.decZpx 0x34) ∧
      decodeTableWord 24 0x1234DE = some (.decAbx 0x1234) := by decide

theorem test_decode_dex :
    decodeTableWord 8 0xCA = some .dex := by decide

theorem test_decode_dey :
    decodeTableWord 8 0x88 = some .dey := by decide

theorem test_decode_and :
    decodeTableWord 16 0x3421 = some (.andIzx 0x34) ∧
      decodeTableWord 16 0x3425 = some (.andZp0 0x34) ∧
      decodeTableWord 16 0x3429 = some (.andImm 0x34) ∧
      decodeTableWord 24 0x12342D = some (.andAbs 0x1234) ∧
      decodeTableWord 16 0x3431 = some (.andIzy 0x34) ∧
      decodeTableWord 16 0x3435 = some (.andZpx 0x34) ∧
      decodeTableWord 24 0x123439 = some (.andAby 0x1234) ∧
      decodeTableWord 24 0x12343D = some (.andAbx 0x1234) := by decide

theorem test_decode_ora :
    decodeTableWord 16 0x3401 = some (.oraIzx 0x34) ∧
      decodeTableWord 16 0x3405 = some (.oraZp0 0x34) ∧
      decodeTableWord 16 0x3409 = some (.oraImm 0x34) ∧
      decodeTableWord 24 0x12340D = some (.oraAbs 0x1234) ∧
      decodeTableWord 16 0x3411 = some (.oraIzy 0x34) ∧
      decodeTableWord 16 0x3415 = some (.oraZpx 0x34) ∧
      decodeTableWord 24 0x123419 = some (.oraAby 0x1234) ∧
      decodeTableWord 24 0x12341D = some (.oraAbx 0x1234) := by decide

theorem test_decode_eor :
    decodeTableWord 16 0x3441 = some (.eorIzx 0x34) ∧
      decodeTableWord 16 0x3445 = some (.eorZp0 0x34) ∧
      decodeTableWord 16 0x3449 = some (.eorImm 0x34) ∧
      decodeTableWord 24 0x12344D = some (.eorAbs 0x1234) ∧
      decodeTableWord 16 0x3451 = some (.eorIzy 0x34) ∧
      decodeTableWord 16 0x3455 = some (.eorZpx 0x34) ∧
      decodeTableWord 24 0x123459 = some (.eorAby 0x1234) ∧
      decodeTableWord 24 0x12345D = some (.eorAbx 0x1234) := by decide

theorem test_decode_bit :
    decodeTableWord 16 0x3424 = some (.bitZp0 0x34) ∧
      decodeTableWord 24 0x12342C = some (.bitAbs 0x1234) := by decide

theorem test_decode_asl :
    decodeTableWord 16 0x3406 = some (.aslZp0 0x34) ∧
      decodeTableWord 8 0x0A = some .aslAcc ∧
      decodeTableWord 24 0x12340E = some (.aslAbs 0x1234) ∧
      decodeTableWord 16 0x3416 = some (.aslZpx 0x34) ∧
      decodeTableWord 24 0x12341E = some (.aslAbx 0x1234) := by decide

theorem test_decode_lsr :
    decodeTableWord 16 0x3446 = some (.lsrZp0 0x34) ∧
      decodeTableWord 8 0x4A = some .lsrAcc ∧
      decodeTableWord 24 0x12344E = some (.lsrAbs 0x1234) ∧
      decodeTableWord 16 0x3456 = some (.lsrZpx 0x34) ∧
      decodeTableWord 24 0x12345E = some (.lsrAbx 0x1234) := by decide

theorem test_decode_rol :
    decodeTableWord 16 0x3426 = some (.rolZp0 0x34) ∧
      decodeTableWord 8 0x2A = some .rolAcc ∧
      decodeTableWord 24 0x12342E = some (.rolAbs 0x1234) ∧
      decodeTableWord 16 0x3436 = some (.rolZpx 0x34) ∧
      decodeTableWord 24 0x12343E = some (.rolAbx 0x1234) := by decide

theorem test_decode_ror :
    decodeTableWord 16 0x3466 = some (.rorZp0 0x34) ∧
      decodeTableWord 8 0x6A = some .rorAcc ∧
      decodeTableWord 24 0x12346E = some (.rorAbs 0x1234) ∧
      decodeTableWord 16 0x3476 = some (.rorZpx 0x34) ∧
      decodeTableWord 24 0x12347E = some (.rorAbx 0x1234) := by decide

theorem test_decode_jmp :
    decodeTableWord 24 0x12344C = some (.jmpAbs 0x1234) ∧
      decodeTableWord 24 0x12346C = some (.jmpInd 0x1234) := by decide

theorem test_decode_jsr :
    decodeTableWord 24 0x123420 = some (.jsr 0x1234) := by decide

theorem test_decode_rts :
    decodeTableWord 8 0x60 = some .rts := by decide

theorem test_decode_bcc :
    decodeTableWord 16 0x3490 = some (.bcc 0x34) := by decide

theorem test_decode_bcs :
    decodeTableWord 16 0x34B0 = some (.bcs 0x34) := by decide

theorem test_decode_beq :
    decodeTableWord 16 0x34F0 = some (.beq 0x34) := by decide

theorem test_decode_bne :
    decodeTableWord 16 0x34D0 = some (.bne 0x34) := by decide

theorem test_decode_bmi :
    decodeTableWord 16 0x3430 = some (.bmi 0x34) := by decide

theorem test_decode_bpl :
    decodeTableWord 16 0x3410 = some (.bpl 0x34) := by decide

theorem test_decode_bvc :
    decodeTableWord 16 0x3450 = some (.bvc 0x34) := by decide

theorem test_decode_bvs :
    decodeTableWord 16 0x3470 = some (.bvs 0x34) := by decide

theorem test_decode_pha :
    decodeTableWord 8 0x48 = some .pha := by decide

theorem test_decode_php :
    decodeTableWord 8 0x08 = some .php := by decide

theorem test_decode_pla :
    decodeTableWord 8 0x68 = some .pla := by decide

theorem test_decode_plp :
    decodeTableWord 8 0x28 = some .plp := by decide

theorem test_decode_clc :
    decodeTableWord 8 0x18 = some .clc := by decide

theorem test_decode_sec :
    decodeTableWord 8 0x38 = some .sec := by decide

theorem test_decode_cli :
    decodeTableWord 8 0x58 = some .cli := by decide

theorem test_decode_sei :
    decodeTableWord 8 0x78 = some .sei := by decide

theorem test_decode_cld :
    decodeTableWord 8 0xD8 = some .cld := by decide

theorem test_decode_sed :
    decodeTableWord 8 0xF8 = some .sed := by decide

theorem test_decode_clv :
    decodeTableWord 8 0xB8 = some .clv := by decide

theorem test_decode_nop :
    decodeTableWord 8 0xEA = some .nop := by decide

theorem test_decode_brk :
    decodeTableWord 8 0x00 = some .brk := by decide

theorem test_decode_rti :
    decodeTableWord 8 0x40 = some .rti := by decide

/-- One word of each family written out bit by bit: LDA #$80, ADC #$01, ROR A, JMP ($02FF), BRK, and a word whose opcode
byte is reserved. -/
theorem test_decode_bits :
    decodeTableWord 16 0b10000000_10101001 = some (.ldaImm 0x80) ∧
      decodeTableWord 16 0b00000001_01101001 = some (.adcImm 0x01) ∧
      decodeTableWord 8 0b01101010 = some .rorAcc ∧
      decodeTableWord 24 0b00000010_11111111_01101100 = some (.jmpInd 0x02FF) ∧
      decodeTableWord 8 0b00000000 = some .brk ∧ decodeTableWord 8 0b00000010 = none := by decide

/-! ## The worked examples of 95_test_vectors.md sections 2.2 to 2.6, at most two for an instruction -/

/-- The registers A, X, Y, SP, P, PC. -/
def regs (a x y sp p : Byte) (pc : Word) : Cpu :=
  { a := a, x := x, y := y, sp := sp, p := p, pc := pc, cycles := 0, adr := 0 }

/-- The default start of the vectors: NROM with one bank, the bytes at PC, the vectors 0x9100, 0x8000, 0x9000, and the
given registers and RAM bytes. -/
def start (bytes : List Byte) (c : Cpu) (ram : Mem 8) : State :=
  let cart := { State.reset.cart with prg := [(0x3FFB, 0x91), (0x3FFD, 0x80), (0x3FFF, 0x90)] }
  placeBytes c.pc bytes { State.reset with cpu := c, bus := { State.reset.bus with ram := ram }, cart := cart }

/-- `CpuClock()` on the start state gives these registers and RAM bytes and leaves one owed cycle fewer than the cost;
the PPU, the cartridge and the rest of the Bus are untouched. -/
def gives (bytes : List Byte) (c : Cpu) (ram : Mem 8) (c' : Cpu) (ram' : Mem 8) (cost : Nat) : Bool :=
  let s := start bytes c ram
  match cpuClock s with
  | .next t =>
    t == { s with cpu := { c' with cycles := cost - 1, adr := t.cpu.adr }, bus := { s.bus with ram := ram' } }
  | _ => false

theorem test_lda :
    gives [0xA9, 0x00] (regs 0x55 0x00 0x00 0xFD 0x24 0x8000) [] (regs 0x00 0x00 0x00 0xFD 0x26 0x8002) [] 2 = true ∧
      gives [0xA9, 0x80] (regs 0x00 0x00 0x00 0xFD 0x24 0x8000) [] (regs 0x80 0x00 0x00 0xFD 0xA4 0x8002) [] 2 = true ∧
      gives [0xA5, 0x10] (regs 0x00 0x00 0x00 0xFD 0x24 0x8000) [(0x0010, 0x7F)]
        (regs 0x7F 0x00 0x00 0xFD 0x24 0x8002) [(0x0010, 0x7F)] 3 = true ∧
      gives [0xB5, 0xF0] (regs 0x00 0x20 0x00 0xFD 0x24 0x8000) [(0x0010, 0x33), (0x0110, 0x44)]
        (regs 0x33 0x20 0x00 0xFD 0x24 0x8002) [(0x0010, 0x33), (0x0110, 0x44)] 4 = true ∧
      gives [0xBD, 0x80, 0x02] (regs 0x00 0x20 0x00 0xFD 0x24 0x8000) [(0x02A0, 0x01)]
        (regs 0x01 0x20 0x00 0xFD 0x24 0x8003) [(0x02A0, 0x01)] 4 = true ∧
      gives [0xBD, 0xF0, 0x12] (regs 0x00 0x20 0x00 0xFD 0x24 0x8000) [(0x0310, 0x99)]
        (regs 0x99 0x20 0x00 0xFD 0xA4 0x8003) [(0x0310, 0x99)] 5 = true ∧
      gives [0xB9, 0xF0, 0x02] (regs 0x55 0x00 0x10 0xFD 0x24 0x8000) []
        (regs 0x00 0x00 0x10 0xFD 0x26 0x8003) [] 5 = true ∧
      gives [0xA1, 0x20] (regs 0x00 0xDF 0x00 0xFD 0x24 0x8000) [(0x0000, 0x02), (0x00FF, 0x34), (0x0100, 0x07), (0x0234, 0xC3), (0x0734, 0x11)]
        (regs 0xC3 0xDF 0x00 0xFD 0xA4 0x8002) [(0x0000, 0x02), (0x00FF, 0x34), (0x0100, 0x07), (0x0234, 0xC3), (0x0734, 0x11)] 6 = true ∧
      gives [0xB1, 0xFF] (regs 0x00 0x00 0x20 0xFD 0x24 0x8000) [(0x0000, 0x02), (0x00FF, 0xF0), (0x0100, 0x06), (0x0310, 0x5A)]
        (regs 0x5A 0x00 0x20 0xFD 0x24 0x8002) [(0x0000, 0x02), (0x00FF, 0xF0), (0x0100, 0x06), (0x0310, 0x5A)] 6 = true ∧
      gives [0xB1, 0x40] (regs 0x00 0x00 0x0F 0xFD 0x24 0x8000) [(0x0040, 0xF0), (0x0041, 0x02), (0x02FF, 0x80)]
        (regs 0x80 0x00 0x0F 0xFD 0xA4 0x8002) [(0x0040, 0xF0), (0x0041, 0x02), (0x02FF, 0x80)] 5 = true ∧
      gives [0xAD, 0x00, 0x08] (regs 0x00 0x00 0x00 0xFD 0x24 0x8000) [(0x0000, 0x42)]
        (regs 0x42 0x00 0x00 0xFD 0x24 0x8003) [(0x0000, 0x42)] 4 = true ∧
      gives [0xAD, 0x00, 0x50] (regs 0x55 0x00 0x00 0xFD 0x24 0x8000) []
        (regs 0x00 0x00 0x00 0xFD 0x26 0x8003) [] 4 = true := by decide

theorem test_ldx :
    gives [0xA2, 0xFF] (regs 0x00 0x00 0x00 0xFD 0x24 0x8000) [] (regs 0x00 0xFF 0x00 0xFD 0xA4 0x8002) [] 2 = true ∧
      gives [0xB6, 0xF0] (regs 0x00 0x55 0x20 0xFD 0x24 0x8000) [] (regs 0x00 0x00 0x20 0xFD 0x26 0x8002) [] 4 = true ∧
      gives [0xBE, 0xF0, 0x02] (regs 0x00 0x00 0x20 0xFD 0x24 0x8000) [(0x0310, 0x7E)]
        (regs 0x00 0x7E 0x20 0xFD 0x24 0x8003) [(0x0310, 0x7E)] 5 = true := by decide

theorem test_ldy :
    gives [0xB4, 0x10] (regs 0x00 0x01 0x00 0xFD 0x24 0x8000) [(0x0011, 0x80)]
        (regs 0x00 0x01 0x80 0xFD 0xA4 0x8002) [(0x0011, 0x80)] 4 = true ∧
      gives [0xBC, 0xF0, 0x02] (regs 0x00 0x0F 0x00 0xFD 0x24 0x8000) [(0x02FF, 0x01)]
        (regs 0x00 0x0F 0x01 0xFD 0x24 0x8003) [(0x02FF, 0x01)] 4 = true := by decide

theorem test_sta :
    gives [0x85, 0x10] (regs 0x00 0x00 0x00 0xFD 0xA4 0x8000) [(0x0010, 0xFF)]
        (regs 0x00 0x00 0x00 0xFD 0xA4 0x8002) [] 3 = true ∧
      gives [0x95, 0xF0] (regs 0xAA 0x20 0x00 0xFD 0x24 0x8000) []
        (regs 0xAA 0x20 0x00 0xFD 0x24 0x8002) [(0x0010, 0xAA)] 4 = true ∧
      gives [0x8D, 0x00, 0x02] (regs 0x80 0x00 0x00 0xFD 0x24 0x8000) []
        (regs 0x80 0x00 0x00 0xFD 0x24 0x8003) [(0x0200, 0x80)] 4 = true ∧
      gives [0x9D, 0xF0, 0x02] (regs 0x77 0x20 0x00 0xFD 0x24 0x8000) []
        (regs 0x77 0x20 0x00 0xFD 0x24 0x8003) [(0x0310, 0x77)] 5 = true ∧
      gives [0x99, 0x00, 0x02] (regs 0x77 0x00 0x01 0xFD 0x24 0x8000) []
        (regs 0x77 0x00 0x01 0xFD 0x24 0x8003) [(0x0201, 0x77)] 5 = true ∧
      gives [0x81, 0x20] (regs 0x66 0x04 0x00 0xFD 0x24 0x8000) [(0x0025, 0x03)]
        (regs 0x66 0x04 0x00 0xFD 0x24 0x8002) [(0x0025, 0x03), (0x0300, 0x66)] 6 = true ∧
      gives [0x91, 0x40] (regs 0x66 0x00 0x20 0xFD 0x24 0x8000) [(0x0040, 0xF0), (0x0041, 0x02)]
        (regs 0x66 0x00 0x20 0xFD 0x24 0x8002) [(0x0040, 0xF0), (0x0041, 0x02), (0x0310, 0x66)] 6 = true ∧
      gives [0x8D, 0x00, 0x80] (regs 0x66 0x00 0x00 0xFD 0x24 0x8000) []
        (regs 0x66 0x00 0x00 0xFD 0x24 0x8003) [] 4 = true := by decide

theorem test_stx :
    gives [0x86, 0x10] (regs 0x00 0x12 0x00 0xFD 0x24 0x8000) []
        (regs 0x00 0x12 0x00 0xFD 0x24 0x8002) [(0x0010, 0x12)] 3 = true ∧
      gives [0x96, 0xF0] (regs 0x00 0x12 0x11 0xFD 0x24 0x8000) []
        (regs 0x00 0x12 0x11 0xFD 0x24 0x8002) [(0x0001, 0x12)] 4 = true ∧
      gives [0x8E, 0x00, 0x03] (regs 0x00 0x00 0x00 0xFD 0x24 0x8000) [(0x0300, 0xFF)]
        (regs 0x00 0x00 0x00 0xFD 0x24 0x8003) [] 4 = true := by decide

theorem test_sty :
    gives [0x84, 0x10] (regs 0x00 0x00 0x13 0xFD 0x24 0x8000) []
        (regs 0x00 0x00 0x13 0xFD 0x24 0x8002) [(0x0010, 0x13)] 3 = true ∧
      gives [0x94, 0x10] (regs 0x00 0xFF 0x13 0xFD 0x24 0x8000) []
        (regs 0x00 0xFF 0x13 0xFD 0x24 0x8002) [(0x000F, 0x13)] 4 = true ∧
      gives [0x8C, 0xFF, 0x07] (regs 0x00 0x00 0x80 0xFD 0x24 0x8000) []
        (regs 0x00 0x00 0x80 0xFD 0x24 0x8003) [(0x07FF, 0x80)] 4 = true := by decide

theorem test_tax :
    gives [0xAA] (regs 0x00 0x55 0x00 0xFD 0x24 0x8000) [] (regs 0x00 0x00 0x00 0xFD 0x26 0x8001) [] 2 = true := by decide

theorem test_tay :
    gives [0xA8] (regs 0x80 0x00 0x00 0xFD 0x24 0x8000) [] (regs 0x80 0x00 0x80 0xFD 0xA4 0x8001) [] 2 = true := by decide

theorem test_txa :
    gives [0x8A] (regs 0x80 0x7F 0x00 0xFD 0xA4 0x8000) [] (regs 0x7F 0x7F 0x00 0xFD 0x24 0x8001) [] 2 = true := by decide

theorem test_tya :
    gives [0x98] (regs 0x01 0x00 0x00 0xFD 0x24 0x8000) [] (regs 0x00 0x00 0x00 0xFD 0x26 0x8001) [] 2 = true := by decide

theorem test_tsx :
    gives [0xBA] (regs 0x00 0x00 0x00 0x80 0x24 0x8000) [] (regs 0x00 0x80 0x00 0x80 0xA4 0x8001) [] 2 = true := by decide

theorem test_txs :
    gives [0x9A] (regs 0x00 0x00 0x00 0xFD 0x24 0x8000) [] (regs 0x00 0x00 0x00 0x00 0x24 0x8001) [] 2 = true ∧
      gives [0x9A] (regs 0x00 0x80 0x00 0xFD 0x24 0x8000) [] (regs 0x00 0x80 0x00 0x80 0x24 0x8001) [] 2 = true := by decide

theorem test_adc :
    gives [0x69, 0x01] (regs 0x7F 0x00 0x00 0xFD 0x24 0x8000) [] (regs 0x80 0x00 0x00 0xFD 0xE4 0x8002) [] 2 = true ∧
      gives [0x69, 0x01] (regs 0xFF 0x00 0x00 0xFD 0x24 0x8000) [] (regs 0x00 0x00 0x00 0xFD 0x27 0x8002) [] 2 = true ∧
      gives [0x65, 0x10] (regs 0x10 0x00 0x00 0xFD 0xE5 0x8000) [(0x0010, 0x20)]
        (regs 0x31 0x00 0x00 0xFD 0x24 0x8002) [(0x0010, 0x20)] 3 = true ∧
      gives [0x7D, 0xF0, 0x02] (regs 0x01 0x10 0x00 0xFD 0x24 0x8000) [(0x0300, 0x02)]
        (regs 0x03 0x10 0x00 0xFD 0x24 0x8003) [(0x0300, 0x02)] 5 = true ∧
      gives [0x71, 0x40] (regs 0x01 0x00 0x01 0xFD 0x24 0x8000) [(0x0041, 0x03), (0x0301, 0xFE)]
        (regs 0xFF 0x00 0x01 0xFD 0xA4 0x8002) [(0x0041, 0x03), (0x0301, 0xFE)] 5 = true := by decide

theorem test_sbc :
    gives [0xE9, 0x10] (regs 0x50 0x00 0x00 0xFD 0x25 0x8000) [] (regs 0x40 0x00 0x00 0xFD 0x25 0x8002) [] 2 = true ∧
      gives [0xE9, 0x01] (regs 0x00 0x00 0x00 0xFD 0x25 0x8000) [] (regs 0xFF 0x00 0x00 0xFD 0xA4 0x8002) [] 2 = true ∧
      gives [0xED, 0x00, 0x03] (regs 0x40 0x00 0x00 0xFD 0x25 0x8000) [(0x0300, 0x41)]
        (regs 0xFF 0x00 0x00 0xFD 0xA4 0x8003) [(0x0300, 0x41)] 4 = true := by decide

theorem test_cmp :
    gives [0xC9, 0x40] (regs 0x40 0x00 0x00 0xFD 0x64 0x8000) [] (regs 0x40 0x00 0x00 0xFD 0x67 0x8002) [] 2 = true ∧
      gives [0xC9, 0x41] (regs 0x40 0x00 0x00 0xFD 0x64 0x8000) [] (regs 0x40 0x00 0x00 0xFD 0xE4 0x8002) [] 2 = true ∧
      gives [0xD5, 0x10] (regs 0x10 0x02 0x00 0xFD 0x24 0x8000) [(0x0012, 0x0F)]
        (regs 0x10 0x02 0x00 0xFD 0x25 0x8002) [(0x0012, 0x0F)] 4 = true ∧
      gives [0xD9, 0xFF, 0x02] (regs 0x10 0x00 0x01 0xFD 0x24 0x8000) [(0x0300, 0x10)]
        (regs 0x10 0x00 0x01 0xFD 0x27 0x8003) [(0x0300, 0x10)] 5 = true := by decide

theorem test_cpx :
    gives [0xE0, 0x10] (regs 0x00 0x0F 0x00 0xFD 0x24 0x8000) [] (regs 0x00 0x0F 0x00 0xFD 0xA4 0x8002) [] 2 = true ∧
      gives [0xE4, 0x10] (regs 0x00 0x80 0x00 0xFD 0x25 0x8000) [(0x0010, 0x80)]
        (regs 0x00 0x80 0x00 0xFD 0x27 0x8002) [(0x0010, 0x80)] 3 = true ∧
      gives [0xEC, 0x00, 0x03] (regs 0x00 0xFF 0x00 0xFD 0x24 0x8000) [(0x0300, 0x7F)]
        (regs 0x00 0xFF 0x00 0xFD 0xA5 0x8003) [(0x0300, 0x7F)] 4 = true := by decide

theorem test_cpy :
    gives [0xC0, 0x00] (regs 0x00 0x00 0x00 0xFD 0x24 0x8000) [] (regs 0x00 0x00 0x00 0xFD 0x27 0x8002) [] 2 = true ∧
      gives [0xC4, 0x10] (regs 0x00 0x00 0x01 0xFD 0x24 0x8000) [(0x0010, 0x02)]
        (regs 0x00 0x00 0x01 0xFD 0xA4 0x8002) [(0x0010, 0x02)] 3 = true ∧
      gives [0xCC, 0x00, 0x03] (regs 0x00 0x00 0x90 0xFD 0x24 0x8000) [(0x0300, 0x10)]
        (regs 0x00 0x00 0x90 0xFD 0xA5 0x8003) [(0x0300, 0x10)] 4 = true := by decide

theorem test_inc :
    gives [0xE6, 0x10] (regs 0x00 0x00 0x00 0xFD 0x24 0x8000) [(0x0010, 0xFF)]
        (regs 0x00 0x00 0x00 0xFD 0x26 0x8002) [] 5 = true ∧
      gives [0xF6, 0x10] (regs 0x00 0xF8 0x00 0xFD 0x24 0x8000) [(0x0008, 0x7F)]
        (regs 0x00 0xF8 0x00 0xFD 0xA4 0x8002) [(0x0008, 0x80)] 6 = true ∧
      gives [0xEE, 0x00, 0x03] (regs 0x00 0x00 0x00 0xFD 0x24 0x8000) []
        (regs 0x00 0x00 0x00 0xFD 0x24 0x8003) [(0x0300, 0x01)] 6 = true ∧
      gives [0xFE, 0xFF, 0x02] (regs 0x00 0x01 0x00 0xFD 0x24 0x8000) [(0x0300, 0xFE)]
        (regs 0x00 0x01 0x00 0xFD 0xA4 0x8003) [(0x0300, 0xFF)] 7 = true := by decide

theorem test_inx :
    gives [0xE8] (regs 0x00 0xFF 0x00 0xFD 0x24 0x8000) [] (regs 0x00 0x00 0x00 0xFD 0x26 0x8001) [] 2 = true ∧
      gives [0xE8] (regs 0x00 0x7F 0x00 0xFD 0x24 0x8000) [] (regs 0x00 0x80 0x00 0xFD 0xA4 0x8001) [] 2 = true := by decide

theorem test_iny :
    gives [0xC8] (regs 0x00 0x00 0xFF 0xFD 0x24 0x8000) [] (regs 0x00 0x00 0x00 0xFD 0x26 0x8001) [] 2 = true ∧
      gives [0xC8] (regs 0x00 0x00 0x00 0xFD 0x26 0x8000) [] (regs 0x00 0x00 0x01 0xFD 0x24 0x8001) [] 2 = true := by decide

theorem test_dec :
    gives [0xC6, 0x10] (regs 0x00 0x00 0x00 0xFD 0x24 0x8000) []
        (regs 0x00 0x00 0x00 0xFD 0xA4 0x8002) [(0x0010, 0xFF)] 5 = true ∧
      gives [0xD6, 0x10] (regs 0x00 0x01 0x00 0xFD 0x24 0x8000) [(0x0011, 0x01)]
        (regs 0x00 0x01 0x00 0xFD 0x26 0x8002) [] 6 = true ∧
      gives [0xCE, 0x00, 0x03] (regs 0x00 0x00 0x00 0xFD 0x24 0x8000) [(0x0300, 0x80)]
        (regs 0x00 0x00 0x00 0xFD 0x24 0x8003) [(0x0300, 0x7F)] 6 = true ∧
      gives [0xDE, 0x00, 0x03] (regs 0x00 0x00 0x00 0xFD 0x24 0x8000) [(0x0300, 0x02)]
        (regs 0x00 0x00 0x00 0xFD 0x24 0x8003) [(0x0300, 0x01)] 7 = true := by decide

theorem test_dex :
    gives [0xCA] (regs 0x00 0x00 0x00 0xFD 0x24 0x8000) [] (regs 0x00 0xFF 0x00 0xFD 0xA4 0x8001) [] 2 = true ∧
      gives [0xCA] (regs 0x00 0x01 0x00 0xFD 0x24 0x8000) [] (regs 0x00 0x00 0x00 0xFD 0x26 0x8001) [] 2 = true := by decide

theorem test_dey :
    gives [0x88] (regs 0x00 0x00 0x80 0xFD 0x24 0x8000) [] (regs 0x00 0x00 0x7F 0xFD 0x24 0x8001) [] 2 = true ∧
      gives [0x88] (regs 0x00 0x00 0x01 0xFD 0x24 0x8000) [] (regs 0x00 0x00 0x00 0xFD 0x26 0x8001) [] 2 = true := by decide

theorem test_and :
    gives [0x29, 0x0F] (regs 0xF0 0x00 0x00 0xFD 0x24 0x8000) [] (regs 0x00 0x00 0x00 0xFD 0x26 0x8002) [] 2 = true ∧
      gives [0x29, 0x80] (regs 0xFF 0x00 0x00 0xFD 0x24 0x8000) [] (regs 0x80 0x00 0x00 0xFD 0xA4 0x8002) [] 2 = true ∧
      gives [0x39, 0x00, 0x03] (regs 0x3C 0x00 0x01 0xFD 0x24 0x8000) [(0x0301, 0x18)]
        (regs 0x18 0x00 0x01 0xFD 0x24 0x8003) [(0x0301, 0x18)] 4 = true ∧
      gives [0x21, 0x10] (regs 0xFF 0x02 0x00 0xFD 0x24 0x8000) [(0x0013, 0x03), (0x0300, 0x55)]
        (regs 0x55 0x02 0x00 0xFD 0x24 0x8002) [(0x0013, 0x03), (0x0300, 0x55)] 6 = true := by decide

theorem test_ora :
    gives [0x09, 0x00] (regs 0x00 0x00 0x00 0xFD 0x24 0x8000) [] (regs 0x00 0x00 0x00 0xFD 0x26 0x8002) [] 2 = true ∧
      gives [0x09, 0x80] (regs 0x01 0x00 0x00 0xFD 0x24 0x8000) [] (regs 0x81 0x00 0x00 0xFD 0xA4 0x8002) [] 2 = true ∧
      gives [0x05, 0x10] (regs 0x0F 0x00 0x00 0xFD 0x24 0x8000) [(0x0010, 0x30)]
        (regs 0x3F 0x00 0x00 0xFD 0x24 0x8002) [(0x0010, 0x30)] 3 = true ∧
      gives [0x11, 0x10] (regs 0x01 0x00 0xFF 0xFD 0x24 0x8000) [(0x0010, 0x01), (0x0011, 0x02), (0x0300, 0x40)]
        (regs 0x41 0x00 0xFF 0xFD 0x24 0x8002) [(0x0010, 0x01), (0x0011, 0x02), (0x0300, 0x40)] 6 = true := by decide

theorem test_eor :
    gives [0x49, 0xFF] (regs 0xFF 0x00 0x00 0xFD 0x24 0x8000) [] (regs 0x00 0x00 0x00 0xFD 0x26 0x8002) [] 2 = true ∧
      gives [0x49, 0xFF] (regs 0x0F 0x00 0x00 0xFD 0x24 0x8000) [] (regs 0xF0 0x00 0x00 0xFD 0xA4 0x8002) [] 2 = true ∧
      gives [0x55, 0x10] (regs 0xAA 0x01 0x00 0xFD 0x24 0x8000) [(0x0011, 0x55)]
        (regs 0xFF 0x01 0x00 0xFD 0xA4 0x8002) [(0x0011, 0x55)] 4 = true ∧
      gives [0x5D, 0xF0, 0x02] (regs 0x01 0x10 0x00 0xFD 0x24 0x8000) [(0x0300, 0x01)]
        (regs 0x00 0x10 0x00 0xFD 0x26 0x8003) [(0x0300, 0x01)] 5 = true := by decide

theorem test_bit :
    gives [0x24, 0x10] (regs 0x01 0x00 0x00 0xFD 0x24 0x8000) [(0x0010, 0xC0)]
        (regs 0x01 0x00 0x00 0xFD 0xE6 0x8002) [(0x0010, 0xC0)] 3 = true ∧
      gives [0x24, 0x10] (regs 0xFF 0x00 0x00 0xFD 0xE6 0x8000) [(0x0010, 0x3F)]
        (regs 0xFF 0x00 0x00 0xFD 0x24 0x8002) [(0x0010, 0x3F)] 3 = true ∧
      gives [0x2C, 0x00, 0x03] (regs 0x40 0x00 0x00 0xFD 0x24 0x8000) [(0x0300, 0x40)]
        (regs 0x40 0x00 0x00 0xFD 0x64 0x8003) [(0x0300, 0x40)] 4 = true ∧
      gives [0x2C, 0x00, 0x03] (regs 0x00 0x00 0x00 0xFD 0x24 0x8000) [(0x0300, 0x80)]
        (regs 0x00 0x00 0x00 0xFD 0xA6 0x8003) [(0x0300, 0x80)] 4 = true := by decide

theorem test_asl :
    gives [0x0A] (regs 0x81 0x00 0x00 0xFD 0x24 0x8000) [] (regs 0x02 0x00 0x00 0xFD 0x25 0x8001) [] 2 = true ∧
      gives [0x0A] (regs 0x40 0x00 0x00 0xFD 0x25 0x8000) [] (regs 0x80 0x00 0x00 0xFD 0xA4 0x8001) [] 2 = true ∧
      gives [0x06, 0x10] (regs 0x00 0x00 0x00 0xFD 0x24 0x8000) [(0x0010, 0x55)]
        (regs 0x00 0x00 0x00 0xFD 0xA4 0x8002) [(0x0010, 0xAA)] 5 = true ∧
      gives [0x16, 0x10] (regs 0x00 0x01 0x00 0xFD 0x24 0x8000) [(0x0011, 0xFF)]
        (regs 0x00 0x01 0x00 0xFD 0xA5 0x8002) [(0x0011, 0xFE)] 6 = true ∧
      gives [0x0E, 0x00, 0x03] (regs 0x00 0x00 0x00 0xFD 0x24 0x8000) [(0x0300, 0x80)]
        (regs 0x00 0x00 0x00 0xFD 0x27 0x8003) [] 6 = true ∧
      gives [0x1E, 0x00, 0x03] (regs 0x00 0xFF 0x00 0xFD 0x24 0x8000) [(0x03FF, 0x01)]
        (regs 0x00 0xFF 0x00 0xFD 0x24 0x8003) [(0x03FF, 0x02)] 7 = true := by decide

theorem test_lsr :
    gives [0x4A] (regs 0x01 0x00 0x00 0xFD 0x24 0x8000) [] (regs 0x00 0x00 0x00 0xFD 0x27 0x8001) [] 2 = true ∧
      gives [0x4A] (regs 0x80 0x00 0x00 0xFD 0xA5 0x8000) [] (regs 0x40 0x00 0x00 0xFD 0x24 0x8001) [] 2 = true ∧
      gives [0x46, 0x10] (regs 0x00 0x00 0x00 0xFD 0x24 0x8000) [(0x0010, 0xFF)]
        (regs 0x00 0x00 0x00 0xFD 0x25 0x8002) [(0x0010, 0x7F)] 5 = true ∧
      gives [0x56, 0x10] (regs 0x00 0x01 0x00 0xFD 0x24 0x8000) [(0x0011, 0x02)]
        (regs 0x00 0x01 0x00 0xFD 0x24 0x8002) [(0x0011, 0x01)] 6 = true ∧
      gives [0x4E, 0x00, 0x03] (regs 0x00 0x00 0x00 0xFD 0x24 0x8000) []
        (regs 0x00 0x00 0x00 0xFD 0x26 0x8003) [] 6 = true ∧
      gives [0x5E, 0x00, 0x03] (regs 0x00 0x01 0x00 0xFD 0x24 0x8000) [(0x0301, 0x03)]
        (regs 0x00 0x01 0x00 0xFD 0x25 0x8003) [(0x0301, 0x01)] 7 = true := by decide

theorem test_rol :
    gives [0x2A] (regs 0x80 0x00 0x00 0xFD 0x25 0x8000) [] (regs 0x01 0x00 0x00 0xFD 0x25 0x8001) [] 2 = true ∧
      gives [0x2A] (regs 0x80 0x00 0x00 0xFD 0x24 0x8000) [] (regs 0x00 0x00 0x00 0xFD 0x27 0x8001) [] 2 = true ∧
      gives [0x26, 0x10] (regs 0x00 0x00 0x00 0xFD 0x25 0x8000) []
        (regs 0x00 0x00 0x00 0xFD 0x24 0x8002) [(0x0010, 0x01)] 5 = true ∧
      gives [0x36, 0x10] (regs 0x00 0x01 0x00 0xFD 0x24 0x8000) [(0x0011, 0xFF)]
        (regs 0x00 0x01 0x00 0xFD 0xA5 0x8002) [(0x0011, 0xFE)] 6 = true ∧
      gives [0x2E, 0x00, 0x03] (regs 0x00 0x00 0x00 0xFD 0x25 0x8000) [(0x0300, 0x7F)]
        (regs 0x00 0x00 0x00 0xFD 0xA4 0x8003) [(0x0300, 0xFF)] 6 = true ∧
      gives [0x3E, 0x00, 0x03] (regs 0x00 0x01 0x00 0xFD 0x24 0x8000) [(0x0301, 0x80)]
        (regs 0x00 0x01 0x00 0xFD 0x27 0x8003) [] 7 = true := by decide

theorem test_ror :
    gives [0x6A] (regs 0x01 0x00 0x00 0xFD 0x24 0x8000) [] (regs 0x00 0x00 0x00 0xFD 0x27 0x8001) [] 2 = true ∧
      gives [0x6A] (regs 0x00 0x00 0x00 0xFD 0x25 0x8000) [] (regs 0x80 0x00 0x00 0xFD 0xA4 0x8001) [] 2 = true ∧
      gives [0x66, 0x10] (regs 0x00 0x00 0x00 0xFD 0x25 0x8000) [(0x0010, 0x02)]
        (regs 0x00 0x00 0x00 0xFD 0xA4 0x8002) [(0x0010, 0x81)] 5 = true ∧
      gives [0x76, 0x10] (regs 0x00 0x01 0x00 0xFD 0x24 0x8000) [(0x0011, 0x01)]
        (regs 0x00 0x01 0x00 0xFD 0x27 0x8002) [] 6 = true ∧
      gives [0x6E, 0x00, 0x03] (regs 0x00 0x00 0x00 0xFD 0x24 0x8000) [(0x0300, 0x80)]
        (regs 0x00 0x00 0x00 0xFD 0x24 0x8003) [(0x0300, 0x40)] 6 = true ∧
      gives [0x7E, 0x00, 0x03] (regs 0x00 0x01 0x00 0xFD 0x25 0x8000) [(0x0301, 0xFF)]
        (regs 0x00 0x01 0x00 0xFD 0xA5 0x8003) [(0x0301, 0xFF)] 7 = true := by decide

theorem test_jmp :
    gives [0x4C, 0x34, 0x12] (regs 0x00 0x00 0x00 0xFD 0x24 0x8000) []
        (regs 0x00 0x00 0x00 0xFD 0x24 0x1234) [] 3 = true ∧
      gives [0x6C, 0x10, 0x03] (regs 0x00 0x00 0x00 0xFD 0x24 0x8000) [(0x0310, 0x78), (0x0311, 0x56)]
        (regs 0x00 0x00 0x00 0xFD 0x24 0x5678) [(0x0310, 0x78), (0x0311, 0x56)] 5 = true ∧
      gives [0x6C, 0xFF, 0x02] (regs 0x00 0x00 0x00 0xFD 0x24 0x8000) [(0x0200, 0x80), (0x02FF, 0x30), (0x0300, 0x90)]
        (regs 0x00 0x00 0x00 0xFD 0x24 0x8030) [(0x0200, 0x80), (0x02FF, 0x30), (0x0300, 0x90)] 5 = true := by decide

theorem test_jsr :
    gives [0x20, 0x00, 0x90] (regs 0x00 0x00 0x00 0xFD 0x24 0x8123) []
        (regs 0x00 0x00 0x00 0xFB 0x24 0x9000) [(0x01FC, 0x25), (0x01FD, 0x81)] 6 = true ∧
      gives [0x20, 0x00, 0x90] (regs 0x00 0x00 0x00 0x00 0x24 0x80FE) [(0x01FF, 0xEE)]
        (regs 0x00 0x00 0x00 0xFE 0x24 0x9000) [(0x0100, 0x81)] 6 = true := by decide

theorem test_rts :
    gives [0x60] (regs 0x00 0x00 0x00 0xFB 0x24 0x8000) [(0x01FC, 0x25), (0x01FD, 0x81)]
        (regs 0x00 0x00 0x00 0xFD 0x24 0x8126) [(0x01FC, 0x25), (0x01FD, 0x81)] 6 = true ∧
      gives [0x60] (regs 0x00 0x00 0x00 0xFE 0x24 0x8000) [(0x0100, 0x12), (0x01FF, 0xFF)]
        (regs 0x00 0x00 0x00 0x00 0x24 0x1300) [(0x0100, 0x12), (0x01FF, 0xFF)] 6 = true := by decide

theorem test_bcc :
    gives [0x90, 0x10] (regs 0x00 0x00 0x00 0xFD 0x24 0x8000) [] (regs 0x00 0x00 0x00 0xFD 0x24 0x8012) [] 3 = true ∧
      gives [0x90, 0x10] (regs 0x00 0x00 0x00 0xFD 0x25 0x8000) [] (regs 0x00 0x00 0x00 0xFD 0x25 0x8002) [] 2 = true := by decide

theorem test_bcs :
    gives [0xB0, 0x10] (regs 0x00 0x00 0x00 0xFD 0x24 0x8000) [] (regs 0x00 0x00 0x00 0xFD 0x24 0x8002) [] 2 = true ∧
      gives [0xB0, 0x10] (regs 0x00 0x00 0x00 0xFD 0x25 0x8000) [] (regs 0x00 0x00 0x00 0xFD 0x25 0x8012) [] 3 = true := by decide

theorem test_beq :
    gives [0xF0, 0x10] (regs 0x00 0x00 0x00 0xFD 0x24 0x8000) [] (regs 0x00 0x00 0x00 0xFD 0x24 0x8002) [] 2 = true ∧
      gives [0xF0, 0x10] (regs 0x00 0x00 0x00 0xFD 0x26 0x8000) [] (regs 0x00 0x00 0x00 0xFD 0x26 0x8012) [] 3 = true := by decide

theorem test_bne :
    gives [0xD0, 0x10] (regs 0x00 0x00 0x00 0xFD 0x24 0x8000) [] (regs 0x00 0x00 0x00 0xFD 0x24 0x8012) [] 3 = true ∧
      gives [0xD0, 0x10] (regs 0x00 0x00 0x00 0xFD 0x26 0x8000) [] (regs 0x00 0x00 0x00 0xFD 0x26 0x8002) [] 2 = true := by decide

theorem test_bmi :
    gives [0x30, 0x10] (regs 0x00 0x00 0x00 0xFD 0x24 0x8000) [] (regs 0x00 0x00 0x00 0xFD 0x24 0x8002) [] 2 = true ∧
      gives [0x30, 0x10] (regs 0x00 0x00 0x00 0xFD 0xA4 0x8000) [] (regs 0x00 0x00 0x00 0xFD 0xA4 0x8012) [] 3 = true := by decide

theorem test_bpl :
    gives [0x10, 0x10] (regs 0x00 0x00 0x00 0xFD 0x24 0x8000) [] (regs 0x00 0x00 0x00 0xFD 0x24 0x8012) [] 3 = true ∧
      gives [0x10, 0x10] (regs 0x00 0x00 0x00 0xFD 0xA4 0x8000) [] (regs 0x00 0x00 0x00 0xFD 0xA4 0x8002) [] 2 = true := by decide

theorem test_bvc :
    gives [0x50, 0x10] (regs 0x00 0x00 0x00 0xFD 0x24 0x8000) [] (regs 0x00 0x00 0x00 0xFD 0x24 0x8012) [] 3 = true ∧
      gives [0x50, 0x10] (regs 0x00 0x00 0x00 0xFD 0x64 0x8000) [] (regs 0x00 0x00 0x00 0xFD 0x64 0x8002) [] 2 = true := by decide

theorem test_bvs :
    gives [0x70, 0x10] (regs 0x00 0x00 0x00 0xFD 0x24 0x8000) [] (regs 0x00 0x00 0x00 0xFD 0x24 0x8002) [] 2 = true ∧
      gives [0x70, 0x10] (regs 0x00 0x00 0x00 0xFD 0x64 0x8000) [] (regs 0x00 0x00 0x00 0xFD 0x64 0x8012) [] 3 = true := by decide

theorem test_pha :
    gives [0x48] (regs 0x42 0x00 0x00 0xFD 0x24 0x8000) []
        (regs 0x42 0x00 0x00 0xFC 0x24 0x8001) [(0x01FD, 0x42)] 3 = true ∧
      gives [0x48] (regs 0x42 0x00 0x00 0x00 0x24 0x8000) []
        (regs 0x42 0x00 0x00 0xFF 0x24 0x8001) [(0x0100, 0x42)] 3 = true := by decide

theorem test_php :
    gives [0x08] (regs 0x00 0x00 0x00 0xFD 0x24 0x8000) []
        (regs 0x00 0x00 0x00 0xFC 0x24 0x8001) [(0x01FD, 0x34)] 3 = true ∧
      gives [0x08] (regs 0x00 0x00 0x00 0xFD 0xEF 0x8000) []
        (regs 0x00 0x00 0x00 0xFC 0xEF 0x8001) [(0x01FD, 0xFF)] 3 = true := by decide

theorem test_pla :
    gives [0x68] (regs 0x55 0x00 0x00 0xFC 0x24 0x8000) [] (regs 0x00 0x00 0x00 0xFD 0x26 0x8001) [] 4 = true ∧
      gives [0x68] (regs 0x00 0x00 0x00 0xFF 0x24 0x8000) [(0x0100, 0x80)]
        (regs 0x80 0x00 0x00 0x00 0xA4 0x8001) [(0x0100, 0x80)] 4 = true := by decide

theorem test_plp :
    gives [0x28] (regs 0x00 0x00 0x00 0xFC 0x24 0x8000) [(0x01FD, 0xFF)]
        (regs 0x00 0x00 0x00 0xFD 0xEF 0x8001) [(0x01FD, 0xFF)] 4 = true ∧
      gives [0x28] (regs 0x00 0x00 0x00 0xFC 0xEF 0x8000) [] (regs 0x00 0x00 0x00 0xFD 0x20 0x8001) [] 4 = true := by decide

theorem test_clc :
    gives [0x18] (regs 0x00 0x00 0x00 0xFD 0xEF 0x8000) [] (regs 0x00 0x00 0x00 0xFD 0xEE 0x8001) [] 2 = true := by decide

theorem test_sec :
    gives [0x38] (regs 0x00 0x00 0x00 0xFD 0x24 0x8000) [] (regs 0x00 0x00 0x00 0xFD 0x25 0x8001) [] 2 = true := by decide

theorem test_cli :
    gives [0x58] (regs 0x00 0x00 0x00 0xFD 0xEF 0x8000) [] (regs 0x00 0x00 0x00 0xFD 0xEB 0x8001) [] 2 = true := by decide

theorem test_sei :
    gives [0x78] (regs 0x00 0x00 0x00 0xFD 0x20 0x8000) [] (regs 0x00 0x00 0x00 0xFD 0x24 0x8001) [] 2 = true := by decide

theorem test_cld :
    gives [0xD8] (regs 0x00 0x00 0x00 0xFD 0xEF 0x8000) [] (regs 0x00 0x00 0x00 0xFD 0xE7 0x8001) [] 2 = true := by decide

theorem test_sed :
    gives [0xF8] (regs 0x00 0x00 0x00 0xFD 0x24 0x8000) [] (regs 0x00 0x00 0x00 0xFD 0x2C 0x8001) [] 2 = true := by decide

theorem test_clv :
    gives [0xB8] (regs 0x00 0x00 0x00 0xFD 0xEF 0x8000) [] (regs 0x00 0x00 0x00 0xFD 0xAF 0x8001) [] 2 = true := by decide

theorem test_nop :
    gives [0xEA] (regs 0x11 0x22 0x33 0xFD 0xEF 0x8000) [] (regs 0x11 0x22 0x33 0xFD 0xEF 0x8001) [] 2 = true := by decide

theorem test_brk :
    gives [0x00] (regs 0x00 0x00 0x00 0xFD 0x21 0x8123) []
        (regs 0x00 0x00 0x00 0xFA 0x25 0x9000) [(0x01FB, 0x31), (0x01FC, 0x25), (0x01FD, 0x81)] 7 = true ∧
      gives [0x00] (regs 0x00 0x00 0x00 0x01 0xE7 0x8123) []
        (regs 0x00 0x00 0x00 0xFE 0xE7 0x9000) [(0x0100, 0x25), (0x0101, 0x81), (0x01FF, 0xF7)] 7 = true := by decide

theorem test_rti :
    gives [0x40] (regs 0x00 0x00 0x00 0xFA 0x25 0x8000) [(0x01FB, 0x21), (0x01FC, 0x23), (0x01FD, 0x81)]
        (regs 0x00 0x00 0x00 0xFD 0x21 0x8123) [(0x01FB, 0x21), (0x01FC, 0x23), (0x01FD, 0x81)] 6 = true ∧
      gives [0x40] (regs 0x00 0x00 0x00 0xFA 0x24 0x8000) [(0x01FB, 0xFF), (0x01FD, 0x90)]
        (regs 0x00 0x00 0x00 0xFD 0xEF 0x9000) [(0x01FB, 0xFF), (0x01FD, 0x90)] 6 = true := by decide


/-! ## Devices, the mapper, interrupts and reset: examples of 95_test_vectors.md -/

/-- A condition on the next state. -/
def nextIs {α : Type} (r : Res α) (f : α → Bool) : Bool :=
  match r with
  | .next t => f t
  | _ => false

/-- The fault of an outcome. -/
def faultIs {α : Type} (r : Res α) (e : Fault) : Bool :=
  match r with
  | .fault e' => e' == e
  | _ => false

/-- A machine with the MMC1 as it is constructed, eight PRG banks and CHR RAM. -/
def mmc1State : State :=
  { State.reset with
    cart :=
      { State.reset.cart with
        prgBanks := 8
        prg := [(0x00000, 0xB0), (0x04000, 0xB1), (0x1C000, 0xB7)]
        chrBanks := 0
        mapper := .mmc1 Mmc1.construct } }

/-- A machine with a PPU register state. -/
def withPpu (f : Ppu → Ppu) : State := { State.reset with ppu := f State.reset.ppu }

/-- A machine at a CPU state. -/
def withCpu (c : Cpu) : State := { State.reset with cpu := c }

/-- Section 2.7, rows 1 and 2, with the vectors of the default cartridge. -/
theorem test_nmi_and_irq :
    nextIs (cpuNmi (start [] { regs 0 0 0 0xFD 0x21 0x8123 with cycles := 2 } [])) (fun t =>
        t.cpu == { regs 0 0 0 0xFA 0x25 0x9100 with cycles := 9 } &&
          t.bus.ram == [(0x1FB, 0x21), (0x1FC, 0x23), (0x1FD, 0x81)]) = true ∧
      nextIs (cpuIrq (start [] (regs 0 0 0 0xFD 0x21 0x8123) [])) (fun t =>
        t.cpu == { regs 0 0 0 0xFA 0x25 0x9000 with cycles := 7 } &&
          t.bus.ram == [(0x1FB, 0x21), (0x1FC, 0x23), (0x1FD, 0x81)]) = true := by decide

/-- Section 2.13: a reset in the middle of a run. -/
theorem test_warm_reset :
    nextIs (busReset (start [] { regs 1 2 3 0xF0 0xE5 0x8123 with cycles := 3 } [(0x10, 0x5A)])) (fun t =>
        t.cpu == { regs 0 0 0 0xFD 0x24 0x8000 with cycles := 8 } && t.bus.ram == [(0x10, 0x5A)]) = true := by decide

/-- Section 2.8: mirrors of RAM and of the PPU registers, cartridge RAM, undecoded addresses. -/
theorem test_bus_decode :
    nextIs (writeAll [(0x0010, 0x5A), (0x6000, 0x77), (0x7FFF, 0x88), (0x4000, 0x11), (0x5000, 0x22)] State.reset)
        (fun t =>
          readByte 0x0810 t == 0x5A && readByte 0x1010 t == 0x5A && readByte 0x1810 t == 0x5A &&
          t.bus.cartRam == [(0, 0x77), (0x1FFF, 0x88)] && readByte 0x4000 t == 0 && readByte 0x4017 t == 0 &&
          readByte 0x5FFF t == 0) = true ∧
      readByte 0x3FFA (withPpu fun p => { p with vblank := true, w := true }) = 0x80 ∧
      (afterRead 0x3FFA (withPpu fun p => { p with vblank := true, w := true })).ppu.vblank = false := by decide

/-- Section 2.8: the controller with `buttons = 0xA5`. -/
theorem test_controller :
    nextIs (writeAll [(0x4016, 0x01)] (setButtons 0xA5 State.reset)) (fun t => readTimes 3 0x4016 t == [1, 1, 1]) = true ∧
      nextIs (writeAll [(0x4016, 0x01), (0x4016, 0x00)] (setButtons 0xA5 State.reset))
        (fun t => readTimes 10 0x4016 t == [1, 0, 1, 0, 0, 1, 0, 1, 1, 1]) = true := by decide

/-- Section 2.9, steps 1 to 6: the scroll and address registers. -/
theorem test_ppu_scroll_and_address :
    nextIs (writeAll [(0x2005, 0x7D)] State.reset)
        (fun t => t.ppu.fineX == 5 && t.ppu.t == 0x000F && t.ppu.w) = true ∧
      nextIs (writeAll [(0x2005, 0x7D), (0x2005, 0x5E), (0x2000, 0x03)] State.reset)
        (fun t => t.ppu.t == 0x6D6F && !t.ppu.w) = true ∧
      nextIs (writeAll [(0x2005, 0x7D), (0x2005, 0x5E), (0x3FFE, 0x21)] State.reset)
        (fun t => t.ppu.t == 0x216F && t.ppu.v == 0 && t.ppu.w) = true ∧
      nextIs (writeAll [(0x2006, 0x21), (0x2006, 0x08)] State.reset)
        (fun t => t.ppu.t == 0x2108 && t.ppu.v == 0x2108) = true := by decide

/-- Section 2.9, steps 7, 8 and 13 to 16: the data register, its buffer, the palette. -/
theorem test_ppu_data :
    nextIs (writeAll [(0x2006, 0x21), (0x2006, 0x08), (0x2007, 0x55), (0x2007, 0x66), (0x2006, 0x21), (0x2006, 0x08)]
        State.reset) (fun t => t.ppu.nt == [(0x108, 0x55), (0x109, 0x66)] && readTimes 3 0x2007 t == [0x00, 0x55, 0x66]) =
        true ∧
      nextIs (writeAll [(0x2006, 0x3F), (0x2006, 0x10), (0x2007, 0x0F), (0x2006, 0x3F), (0x2006, 0x30)] State.reset)
        (fun t => t.ppu.pal == [(0, 0x0F)] && readByte 0x2007 t == 0x0F) = true ∧
      nextIs (writeAll [(0x2001, 0x18), (0x2006, 0x3F), (0x2006, 0x04), (0x2007, 0x11)] State.reset)
        (fun t => t.ppu.pal == [(0, 0x11)]) = true := by decide

/-- Section 2.9, steps 20, 24 and 25: STATUS and OAMDATA. -/
theorem test_ppu_status_and_oam :
    readTimes 2 0x2002 (withPpu fun p => { p with vblank := true, overflow := true, w := true }) = [0xA0, 0x20] ∧
      nextIs (writeAll [(0x2003, 0xFF), (0x2004, 0x12), (0x2004, 0x34)] State.reset)
        (fun t => t.ppu.oam == [(0, 0x34), (255, 0x12)] && t.ppu.oamAddr == 1) = true := by decide

set_option maxRecDepth 4000 in
/-- Section 2.12, row 3: the source of a DMA is CPU RAM, not the Bus. -/
theorem test_dma :
    nextIs (busWrite 0x4014 0x20
        { State.reset with
          bus := { State.reset.bus with ram := [(0, 0x5A)] }
          ppu := { State.reset.ppu with vblank := true } })
      (fun t => t.ppu.oam == [(0, 0x5A)] && t.ppu.vblank && t.bus.dmaMark) = true := by decide

/-- Section 1, E6: the MMC1's serial port. -/
theorem test_mmc1_serial :
    nextIs (writeAll [(0xE000, 1), (0xE000, 0), (0xE000, 0), (0xE000, 0), (0xE000, 0)] mmc1State)
        (fun t =>
          t.cart.mapper == .mmc1 { Mmc1.construct with prg := 1 } && readByte 0x8000 t == 0xB1 &&
          readByte 0xC000 t == 0xB7) = true ∧
      nextIs (writeAll [(0x8000, 1), (0x8000, 1)] mmc1State)
        (fun t => t.cart.mapper == .mmc1 { Mmc1.construct with shift := 3, count := 2 }) = true ∧
      nextIs (writeAll [(0x8000, 1), (0x8000, 1), (0xFFFF, 0x80)] mmc1State)
        (fun t => t.cart.mapper == .mmc1 Mmc1.construct) = true ∧
      faultIs (busRead 0x6000 mmc1State) (.unimplemented 0x6000) = true ∧
      faultIs (busWrite 0x7FFF 0 mmc1State) (.unimplemented 0x7FFF) = true := by decide

/-- Section 2.11: the MMC1's banks after `control = 0B, prg = 06` and after `control = 02, prg = 06`. -/
theorem test_mmc1_banks :
    mmc1CpuRead Params.default 8 { Mmc1.construct with control := 0x0B, prg := 6 } 0x8000 = .offset 0 ∧
      mmc1CpuRead Params.default 8 { Mmc1.construct with control := 0x0B, prg := 6 } 0xC000 = .offset 0x18000 ∧
      mmc1CpuRead Params.default 8 { Mmc1.construct with control := 0x02, prg := 6 } 0xFFFF = .offset 0x1FFFF ∧
      mmc1ChrOffset { Mmc1.construct with control := 0x1F, chr0 := 2, chr1 := 5 } 0x1010 = 0x5010 ∧
      mmc1ChrOffset { Mmc1.construct with control := 0x0C, chr0 := 2, chr1 := 5 } 0x1010 = 0x3010 := by decide

/-- The cartridge and PPU of section 2.10 at a position, with background rendering on (`MASK = 0A`). -/
def screen (scanline cycle : Nat) (v : Scroll) : Ppu :=
  { State.reset.ppu with
    scanline := scanline
    cycle := cycle
    v := v
    mask := 0x0A
    nt := [(0x000, 0x01), (0x002, 0x01), (0x3C0, 0x07)]
    pal := [(0, 0x0F), (5, 0x25), (13, 0x2D), (19, 0x33)] }

/-- The cartridge of section 2.10: row 0 of tile 1 is `F0`, `0F`. -/
def tiles : Cart := { State.reset.cart with chr := [(0x10, 0xF0), (0x18, 0x0F), (0x20, 0xFF), (0x28, 0xFF)] }

/-- Section 2.10 (a): dots 8, 256 and 257 of scanline 0. -/
theorem test_background_dots :
    (let q := ppuTick tiles (screen 0 8 0)
     q.v == 1 && q.bgLo == 0x00F0 && q.bgHi == 0x000F && q.atLo == 0x00FF && q.atHi == 0x00FF) = true ∧
      (ppuTick tiles (screen 0 256 0x001F)).v = 0x1400 ∧ (ppuTick tiles (screen 0 257 0x1400)).v = 0x1000 := by decide

/-- Section 2.10 (d): sprite 0 over an opaque background pixel, at dot 3 of scanline 1. -/
theorem test_sprite0_hit :
    (let p : Ppu :=
      { screen 1 3 0 with
        mask := 0x1E
        bgLo := 0x8000
        atLo := 0x8000
        atHi := 0x8000
        units := [{ lo := 0xFF, hi := 0xFF, x := 2, palette := 4, flipH := false, behind := false, isZero := true }] }
     let q := ppuTick tiles p
     q.sprite0 && q.framebuffer == [(258, 0x33)]) = true := by decide

/-- Section 1, E7, and R281 to R283: the edges of the frame. -/
theorem test_frame_edges :
    (let q := ppuTick tiles { screen 241 1 0 with control := 0x80 }
     q.vblank && q.nmiOut) = true ∧
      (let q := ppuTick tiles { screen 261 1 0 with vblank := true, sprite0 := true, overflow := true }
       !q.vblank && !q.sprite0 && !q.overflow) = true ∧
      (let q := ppuTick tiles (screen 261 340 0)
       q.scanline == 0 && q.cycle == 0 && q.frameComplete) = true := by decide

/-- Section 2.10 (f): the ninth sprite on a scanline sets overflow. -/
theorem test_sprite_overflow :
    (let p := { screen 10 73 0 with oam := [(32, 0x0A)], sec := [0, 1, 2, 3, 4, 5, 6, 7] }
     (ppuTick tiles p).overflow) = true ∧
      (let p := { screen 10 72 0 with oam := [(28, 0x0A)], sec := [0, 1, 2, 3, 4, 5, 6] }
       (ppuTick tiles p).sec) = [0, 1, 2, 3, 4, 5, 6, 7] := by decide

/-! ## For each obligation with hypotheses, a state and operands that meet them -/

/-- The 151 instructions with operand bytes of zero. -/
def samples : List Instr := (List.range 256).filterMap fun n => (lookup (BitVec.ofNat 8 n)).map entrySample

set_option maxRecDepth 4000 in
/-- One instruction for every row of the table: what every statement about a mnemonic can be applied to. -/
theorem witness_samples : samples.length = 151 := by decide

set_option maxRecDepth 4000 in
/-- At the reset state the operand of every sample is open, and every sample completes: the hypotheses of the result and
frame statements (O7 to O22, O24 to O29), with both the accumulator and the memory forms. -/
theorem witness_every_instruction_completes :
    samples.all (fun i => OperandOpen i.operand State.reset && nextIs (exec i State.reset) fun _ => true) = true := by
  decide

/-- The edges of the window in which an operand is not open (O7 to O17, O23). -/
theorem witness_open_edges :
    OperandOpen (.abs 0x5FFF) mmc1State = true ∧ OperandOpen (.abs 0x8000) mmc1State = true ∧
      OperandOpen (.ind 0x5FFF) mmc1State = true ∧ OperandOpen (.ind 0x80FF) mmc1State = true ∧
      OperandOpen (.abs 0x6000) State.reset = true ∧ Blocked mmc1State.cart 0x6000 = true ∧
      Blocked mmc1State.cart 0x7FFF = true ∧ effAddr (.abx 0x7FFF) mmc1State = 0x7FFF ∧
      faultIs (exec (.incAbx 0x7FFF) mmc1State) (.unimplemented 0x7FFF) = true ∧
      faultIs (exec (.staAbs 0x6000) mmc1State) (.unimplemented 0x6000) = true ∧
      faultIs (exec (.jmpInd 0x6000) mmc1State) (.unimplemented 0x6000) = true := by decide

/-- O2: bytes that decode, with a rest. -/
theorem witness_decode :
    decode [0xA9, 0x80, 0x07] = .ok (.ldaImm 0x80, [0x07]) ∧ decode [0x4C, 0x34, 0x12] = .ok (.jmpAbs 0x1234, []) := by
  decide

/-- O3: the least and the greatest reserved byte, and assigned bytes beside them. -/
theorem witness_reserved :
    (0x02 : Byte) ∈ reservedOpcodes ∧ (0xFF : Byte) ∈ reservedOpcodes ∧ (0x00 : Byte) ∉ reservedOpcodes ∧
      (0xFE : Byte) ∉ reservedOpcodes := by decide

/-- O5: the machine after three dots, with LDA #$80 in RAM at PC, and with LDA $12 whose bytes stand in PRG. -/
theorem witness_step :
    nextIs (threeDots (start [0xA9, 0x80] (regs 0 0 0 0xFD 0x24 0x0010) [])) (fun t =>
        t.cpu.cycles == 0 && codeOpen t.cart 2 t.cpu.pc && (bytesAt 2 t.cpu.pc t).1 == encode (.ldaImm 0x80) &&
        plainStorage t 0x0010 && plainStorage t 0x0011) = true ∧
      nextIs (threeDots (start [0xA5, 0x12] (regs 0 0 0 0xFD 0x24 0xFFF0) [])) (fun t =>
        t.cpu.cycles == 0 && codeOpen t.cart 2 t.cpu.pc && (bytesAt 2 t.cpu.pc t).1 == encode (.ldaZp0 0x12) &&
        plainStorage t 0xFFF0 && plainStorage t 0xFFF1) = true ∧
      decode (encode (.ldaImm 0x80)) = .ok (.ldaImm 0x80, []) ∧ decode (encode (.ldaZp0 0x12)) = .ok (.ldaZp0 0x12, []) := by
  decide

/-- O6: the reset state owes eight cycles. -/
theorem witness_owed :
    State.reset.cpu.cycles = 8 ∧ State.reset.ppu.nmiOut = false ∧ State.reset.ppu.nmiEnable = false := by decide

/-- O18: either value of every flag a branch tests. -/
theorem witness_branches :
    (flagC 0x00, flagZ 0x00, flagN 0x00, flagV 0x00) = (false, false, false, false) ∧
      (flagC 0xC3, flagZ 0xC3, flagN 0xC3, flagV 0xC3) = (true, true, true, true) := by decide

/-- O22, O35: a CPU state with U 1 and B 0, with I clear and with I set. -/
theorem witness_interrupts :
    (regs 0 0 0 0xFD 0x20 0x8000).Inv = true ∧ flagI 0x20 = false ∧ (regs 0 0 0 0xFD 0x24 0x8000).Inv = true ∧
      flagI 0x24 = true := by decide

/-- O23: a fetch in the window, at both its ends, and of a reserved byte. -/
theorem witness_fetch_faults :
    nextIs (threeDots { mmc1State with cpu := regs 0 0 0 0xFD 0x24 0x6000 }) (fun t =>
        t.cpu.cycles == 0 && Blocked t.cart t.cpu.pc) = true ∧
      nextIs (threeDots { mmc1State with cpu := regs 0 0 0 0xFD 0x24 0x7FFF }) (fun t =>
        t.cpu.cycles == 0 && Blocked t.cart t.cpu.pc) = true ∧
      nextIs (threeDots (start [0x02] (regs 0 0 0 0xFD 0x24 0x8000) [])) (fun t =>
        t.cpu.cycles == 0 && !Blocked t.cart t.cpu.pc && decide (readByte t.cpu.pc t ∈ reservedOpcodes)) = true ∧
      faultIs (step (start [0x02] (regs 0 0 0 0xFD 0x24 0x8000) [])) (.illegalOpcode 0x02 0x8000) = true ∧
      faultIs (step { mmc1State with cpu := regs 0 0 0 0xFD 0x24 0x6000 }) (.unimplemented 0x6000) = true := by decide

/-- O25, O26, O28: addresses that are storage and addresses that are devices, each side of every edge, and mirrors. -/
theorem witness_frames :
    (List.map IsDevice [0x1FFF, 0x2000, 0x3FFF, 0x4000, 0x4013, 0x4014, 0x4015, 0x4016, 0x4017, 0xFFFF]) =
        [false, true, true, false, false, true, false, true, false, false] ∧
      sameByte 0x0810 0x0010 = true ∧ sameByte 0x0011 0x0010 = false ∧ sameByte 0x2000 0x0000 = false ∧
      nextIs (exec (.staAbs 0x2004) State.reset) (fun _ => true) = true ∧
      nextIs (exec (.ldaAbs 0x2007) State.reset) (fun _ => true) = true ∧
      nextIs (exec (.incAbs 0x7FFF) State.reset) (fun _ => true) = true ∧
      nextIs (exec (.staAbs 0x8000) mmc1State) (fun _ => true) = true ∧
      nextIs (exec (.jmpInd 0x2002) State.reset) (fun _ => true) = true ∧
      nextIs (exec (.jmpInd 0x02FF) State.reset) (fun _ => true) = true ∧ IsDevice 0x02FF = false ∧
      IsDevice (nextInPage 0x02FF) = false := by decide

/-- O31, O32: an access in every range, at both its ends, with NROM and with the MMC1. -/
theorem witness_bus :
    ([0x0000, 0x1FFF, 0x2000, 0x3FFF, 0x4000, 0x4014, 0x4016, 0x5FFF, 0x6000, 0x7FFF, 0x8000, 0xFFFF] : List Word).all
        (fun a =>
          nextIs (busRead a State.reset) (fun _ => true) && nextIs (busWrite a 1 State.reset) (fun _ => true) &&
          (Blocked mmc1State.cart a == decide (a = 0x6000 ∨ a = 0x7FFF))) = true ∧
      State.reset.cart.mapper = .nrom ∧ mmc1State.cart.mapper = .mmc1 Mmc1.construct := by decide

set_option maxRecDepth 4000 in
/-- O33, O34. -/
theorem witness_dma_and_controller :
    nextIs (exec (.staAbs 0x4014) State.reset) (fun t => t.cpu.cycles == 4) = true ∧
      (0x01 : Byte).getLsbD 0 = true ∧ (0xFE : Byte).getLsbD 0 = false := by decide

/-- O36: the dot (241, 1) with NMIs on and off, and the dots beside it. -/
theorem witness_nmi :
    let at' (c : Nat) (ctl : Byte) : State := withPpu fun p => { p with scanline := 241, cycle := c, control := ctl }
    ((at' 1 0x80).ppu.nmiOut = false ∧ (at' 1 0x80).ppu.control.getLsbD 7 = true ∧
        nextIs (ppuDot (at' 1 0x80)) (fun t => t.cpu.sp == 0xFA && t.ppu.vblank) = true) ∧
      (at' 1 0x7F).ppu.control.getLsbD 7 = false ∧ nextIs (ppuDot (at' 1 0x7F)) (fun t => t.cpu.sp == 0xFD) = true ∧
      nextIs (ppuDot (at' 0 0x80)) (fun t => t.cpu.sp == 0xFD) = true ∧
      nextIs (ppuDot (at' 2 0x80)) (fun t => t.cpu.sp == 0xFD) = true := by decide

/-- O38: images that pass and that fail the checks, and parameters that meet R8. -/
theorem witness_images (prg : List Byte) (h : prg.length = 16384) :
    (Image.mk 1 prg 0 [] 0 .horizontal).wellFormed = true ∧ (Image.mk 1 prg 0 [] 1 .vertical).wellFormed = true ∧
      (Image.mk 1 prg 0 [] 2 .horizontal).wellFormed = false ∧ Params.default.wellFormed = true := by
  have h4 : Params.default.wellFormed = true := by decide
  simp [Image.wellFormed, Image.check, h, h4]

/-- O40, O42, O44: states that meet the invariant, with NROM and with the MMC1, owing cycles and about to execute, and
whose step answers a next state. -/
theorem witness_invariant :
    State.reset.Inv = true ∧ nextIs (step State.reset) (fun _ => true) = true ∧ mmc1State.Inv = true ∧
      nextIs (step mmc1State) (fun _ => true) = true ∧
      (start [0xE6, 0x10] (regs 0 0 0 0xFD 0x24 0x8000) []).Inv = true ∧
      nextIs (step (start [0xE6, 0x10] (regs 0 0 0 0xFD 0x24 0x8000) [])) (fun t => t.cpu.cycles == 4) = true := by decide

/-- O41: each action of the host from the reset state. -/
theorem witness_host :
    nextIs (hostRun [.buttons 0xA5, .irq, .reset, .clock] State.reset) (fun _ => true) = true := by decide

/-- O42: with CHR ROM and with CHR RAM. -/
theorem witness_chr : State.reset.cart.chrBanks = 1 ∧ mmc1State.cart.chrBanks = 0 := by decide

/-- O43: each of the two faults is the fault of some step; with NROM, an assigned opcode and a state that owes cycles. -/
theorem witness_faults :
    faultIs (step { mmc1State with cpu := regs 0 0 0 0xFD 0x24 0x7FFF }) (.unimplemented 0x7FFF) = true ∧
      faultIs (step (start [0xFF] (regs 0 0 0 0xFD 0x24 0xFFF0) [])) (.illegalOpcode 0xFF 0xFFF0) = true ∧
      nextIs (threeDots (start [0x02] (regs 0 0 0 0xFD 0x24 0x8000) [])) (fun t =>
        t.cpu.cycles == 0 && t.cpu.pc == 0x8000 && readByte 0x8000 t == 0x02) = true ∧
      (start [0xFE] (regs 0 0 0 0xFD 0x24 0x8000) []).cart.mapper = .nrom ∧
      nextIs (threeDots (start [0xFE] (regs 0 0 0 0xFD 0x24 0x8000) [])) (fun t =>
        t.cpu.cycles == 0 && readByte t.cpu.pc t == 0xFE && decide (readByte t.cpu.pc t ∉ reservedOpcodes)) = true ∧
      State.reset.cart.mapper = .nrom ∧ nextIs (threeDots State.reset) (fun t => t.cpu.cycles == 8) = true := by decide

/-- O45, O46: the edges of the register window, its eight registers, and both values of the latch. -/
theorem witness_ppu_registers :
    ([0x2000, 0x2001, 0x2002, 0x2003, 0x2004, 0x2005, 0x2006, 0x2007, 0x3FFF] : List Word).map (fun a => a.toNat % 8) =
        [0, 1, 2, 3, 4, 5, 6, 7, 7] ∧
      State.reset.ppu.w = false ∧ (withPpu fun p => { p with w := true }).ppu.w = true ∧
      (0x3EFF % 0x4000 < 0x3F00) ∧ ¬ (0x3F00 % 0x4000 < 0x3F00) := by decide

/-- O47: nametable addresses of one byte and of two, palette addresses of one entry and of two, both arrangements. -/
theorem witness_ppu_memory :
    let c := State.reset.cart
    let p := State.reset.ppu
    cartArrangement c = .horizontal ∧ cartArrangement { c with headerArrangement := .vertical } = .vertical ∧
      ntIndex c 0x2000 = ntIndex c 0x3400 ∧ ntIndex c 0x2000 ≠ ntIndex c 0x3EFF ∧
      palIndex p 0x3F00 = palIndex p 0x3FF0 ∧ palIndex p 0x3F00 ≠ palIndex p 0x3FFF ∧ c.chrBanks ≠ 0 ∧
      mmc1State.cart.chrBanks = 0 ∧ mapPpuRead mmc1State.cart 0x0000 = some 0 ∧
      mapPpuRead mmc1State.cart 0x1FFF = some 0x1FFF := by decide

/-- O47: CHR ROM at both ends of the pattern tables (an MMC1 bank beyond the cartridge wraps around), the examples of
R277 at the ends of the nametables and of the palette, and the four arrangement codes of the MMC1. -/
theorem witness_ppu_cells :
    let c := { State.reset.cart with chr := [(0x0000, 0x11), (0x1FFF, 0x22)] }
    let p := { State.reset.ppu with nt := [(0, 0x33), (0x3FF, 0x55), (0x400, 0x44), (0x6FF, 0x66)], pal := [(0, 0x77)] }
    let codes (k : BitVec 5) : Cart := { c with mapper := .mmc1 { Mmc1.construct with control := k, chr0 := 2 } }
    (c.chrBanks = 1 ∧ mapPpuRead c 0x0000 = some 0 ∧ mapPpuRead c 0x1FFF = some 0x1FFF ∧ mapPpuRead c 0x2000 = none ∧
        ppuRead c p 0x0000 = 0x11 ∧ ppuRead c p 0x1FFF = 0x22) ∧
      (mapPpuRead (codes 0x0C) 0x1FFF = some 0x3FFF ∧ ppuRead (codes 0x0C) p 0x1FFF = 0x22) ∧
      (ppuRead c p 0x2000 = 0x33 ∧ ppuRead c p 0x2400 = 0x33 ∧ ppuRead c p 0x2800 = 0x44 ∧ ppuRead c p 0x3EFF = 0x66 ∧
        ppuRead c p 0x3F00 = 0x77 ∧ ppuRead c p 0x3FFF = 0) ∧
      (ppuRead (codes 2) p 0x2000 = 0x33 ∧ ppuRead (codes 2) p 0x2400 = 0x44 ∧ ppuRead (codes 2) p 0x2800 = 0x33) ∧
      [0, 1, 2, 3].map (fun k => cartArrangement { codes k with headerArrangement := .vertical }) =
        [.vertical, .vertical, .vertical, .horizontal] ∧
      cartArrangement (codes 0) = .horizontal ∧ cartArrangement (codes 2) = .vertical := by decide

/-- O48: an index of each kind, with both layers on and with one. -/
theorem witness_palette :
    let both := { State.reset.ppu with mask := 0x18 }
    let one := { State.reset.ppu with mask := 0x08 }
    palIndex both 0x3F1F = 31 ∧ palIndex both 0x3F0C = 0 ∧ palIndex both 0x3F1C = 0 ∧ palIndex one 0x3F1C = 12 ∧
      palIndex one 0x3F00 = 0 := by decide

/-- O49, O50: positions at the ends of the frame, with rendering on and off, and the two flag dots. -/
theorem witness_positions :
    (screen 0 0 0).scanline ≤ 261 ∧ (screen 261 340 0).cycle ≤ 340 ∧ (screen 0 0 0).rendering = true ∧
      State.reset.ppu.rendering = false ∧ dotNumber (screen 261 340 0) = 89341 ∧ dotNumber (screen 0 0 0) = 0 ∧
      (ppuTick tiles { screen 241 1 0 with mask := 0 }).vblank = true ∧
      (ppuTick tiles { screen 261 257 0 with mask := 0, units := [⟨1, 1, 1, 4, false, false, true⟩] }).units = [] ∧
      (ppuTick tiles { screen 239 256 0 with mask := 0 }).framebuffer = [(61439, 0x0F)] := by decide

/-- O51, O52: visible lines at both ends, rendering on, at most eight selected sprites. -/
theorem witness_sprites :
    (screen 0 65 0).scanline ≤ 239 ∧ (screen 239 65 0).scanline ≤ 239 ∧ (screen 239 65 0).cycle = 65 ∧
      (screen 239 65 0).rendering = true ∧ (screen 239 257 0).cycle = 257 ∧
      ({ screen 239 257 0 with sec := [0, 1, 2, 3, 4, 5, 6, 63] } : Ppu).sec.length ≤ 8 := by decide

/-- A PPU with one sprite unit at column 0, and a background pixel that is opaque or not. -/
def pixelPpu (bg : BitVec 16) (behind : Bool) (cycle : Nat) : Ppu :=
  { screen 0 cycle 0 with
    mask := 0x1E
    bgLo := bg
    units :=
      [{ lo := 0, hi := 0, x := 0, palette := 4, flipH := false, behind := false, isZero := false },
       { lo := 0x81, hi := 0, x := 0, palette := 5, flipH := true, behind := behind, isZero := true }] }

/-- O53, O54: every case of the two pixels at a visible dot, the masked columns, and a unit found after a transparent
one. -/
theorem witness_pixels :
    ((bgPixel (pixelPpu 0 false 2) 1).px = 0 ∧ sprPixel (pixelPpu 0 false 2) 1 = none) ∧
      ((bgPixel (pixelPpu 0x8000 false 256) 255).px ≠ 0 ∧ sprPixel (pixelPpu 0x8000 false 256) 255 = none) ∧
      (bgPixel (pixelPpu 0x8000 true 1) 0).px ≠ 0 ∧
      sprPixel (pixelPpu 0x8000 true 1) 0 = some { px := 1, pal := 5, behind := true, isZero := true } ∧
      sprPixel (pixelPpu 0 false 8) 7 = some { px := 1, pal := 5, behind := false, isZero := true } ∧
      (bgPixel { pixelPpu 0x8000 false 8 with mask := 0x1C } 7).px = 0 ∧
      (bgPixel { pixelPpu 0x8000 false 9 with mask := 0x1C } 8).px ≠ 0 ∧
      sprPixel { pixelPpu 0 false 8 with mask := 0x1A } 7 = none ∧
      sprPixel { pixelPpu 0 false 8 with mask := 0x0E } 7 = none := by decide

/-- O55: coarse y below 30 in the middle of a row of tiles, at its last line and at row 239, and coarse y 30 and 31. -/
theorem witness_scroll :
    (0x73A0 : Scroll).toNat / 32 % 32 = 29 ∧ (0x73C0 : Scroll).toNat / 32 % 32 = 30 ∧
      (0x73E0 : Scroll).toNat / 32 % 32 = 31 ∧ incY 0x63A0 = 0x73A0 ∧ incY 0x7380 = 0x03A0 ∧ incY 0x73A0 = 0x0800 ∧ incY 0x7BA0 = 0 ∧ incY 0x73C0 = 0x03E0 ∧ incY 0x73E0 = 0 := by decide

/-- O56, O57: the dots at which `v` moves, at both ends of their ranges. -/
theorem witness_scroll_dots :
    let dot (y x : Nat) (v t : Scroll) : Scroll := (ppuTick tiles { screen y x v with t := t }).v
    dot 0 8 0 0 = 1 ∧ dot 239 248 0 0 = 1 ∧ dot 261 328 0 0 = 1 ∧ dot 261 336 0 0 = 1 ∧ dot 261 257 0x041F 0 = 0 ∧
      dot 261 279 1 2 = 1 ∧ dot 261 280 1 2 = 2 ∧ dot 261 304 1 2 = 2 ∧ dot 261 305 1 2 = 1 ∧ dot 240 8 1 2 = 1 ∧
      dot 0 0 1 2 = 1 ∧ dot 0 7 1 2 = 1 ∧ dot 0 337 1 2 = 1 := by decide

/-- O58: both ends of each range, with one and two banks, CHR ROM and CHR RAM. -/
theorem witness_nrom :
    State.reset.cart.mapper = .nrom ∧ nromCpuRead 1 0x7FFF = .none ∧ nromCpuRead 1 0xC000 = .offset 0 ∧
      nromCpuRead 2 0xC000 = .offset 0x4000 ∧ nromCpuRead 2 0xFFFF = .offset 0x7FFF ∧
      mapPpuWrite State.reset.cart 0x1FFF = none ∧
      mapPpuWrite { State.reset.cart with chrBanks := 0 } 0x1FFF = some 0x1FFF := by decide

/-- O59, O60: an empty port, one with three bits, and every mode at the ends of its windows. -/
theorem witness_mmc1 :
    Mmc1.construct.shift = 0 ∧ Mmc1.construct.count = 0 ∧ ({ Mmc1.construct with count := 3 } : Mmc1).count < 4 ∧
      (0x80 : Byte).getLsbD 7 = true ∧ (0x7F : Byte).getLsbD 7 = false ∧
      [0x00, 0x04, 0x08, 0x0C].map (fun k => (k : BitVec 5).toNat / 4 % 4) = [0, 1, 2, 3] ∧
      cartCpuWrite mmc1State.cart 0x5FFF 1 = .none ∧ cartCpuWrite mmc1State.cart 0x6000 1 = .fault ∧
      cartCpuWrite mmc1State.cart 0x7FFF 1 = .fault ∧
      (0x0C : BitVec 5).getLsbD 4 = false ∧ (0x1C : BitVec 5).getLsbD 4 = true := by decide

/-! ## The host's two questions, on the first and the last row of the table and a three-byte row -/

theorem test_with_fetch_word :
    nextIs (step (State.reset.withFetchWord 8 0x00)) (fun t => t.cpu.cycles == 6) = true ∧
      nextIs (step (State.reset.withFetchWord 24 0x00028D)) (fun t => t.cpu.adr == 0x0002 && t.cpu.pc == 3) = true ∧
      nextIs (step (State.reset.withFetchWord 8 0x98)) (fun t => t.cpu.p == 0x26 && t.cpu.cycles == 1) = true := by decide

end Sys2Proof.Tests
end

section
/-! PROOF. What an operation ensures of the state it answers, and the parts of the invariant: the live status register,
the PPU's position and lists, the mapper's counter, the memories. Each shared operation keeps them. -/

namespace Sys2Proof.Machine

/-! ## What an operation ensures -/

section

variable {α β : Type} {P : α → Prop} {Q : β → Prop}

/-- If the operation answers a next state, that state meets `P`; of a fault or a refusal nothing is asked. -/
def Ensures (r : Res α) (P : α → Prop) : Prop := ∀ a, r = .next a → P a

@[simp] theorem ensures_next {a : α} : Ensures (.next a) P ↔ P a := by simp [Ensures]

@[simp] theorem ensures_fault {e : Fault} : Ensures (.fault e) P := by simp [Ensures]

/-- Operations in sequence: the second one starts from what the first one ensures. -/
theorem ensures_andThen {r : Res α} {f : α → Res β} (hr : Ensures r P) (hf : ∀ a, P a → Ensures (f a) Q) :
    Ensures (andThen r f) Q := by
  intro b hb
  obtain ⟨a, ha, hfa⟩ := andThen_eq_next.mp hb
  exact hf a (hr a ha) b hfa

end

/-! ## The status register between instructions (R24, R25) -/

section

variable {p : Byte} {b : Bool}

/-- Bit 5 reads as 1 and bit 4 is held as 0. -/
def LiveStatus (p : Byte) : Prop := p.getLsbD 5 = true ∧ p.getLsbD 4 = false

theorem Cpu.inv_iff {c : Cpu} : c.Inv = true ↔ LiveStatus c.p := by simp [Cpu.Inv, LiveStatus, flagU, flagB]

theorem Params.wellFormed_iff {ps : Params} : ps.wellFormed = true ↔ LiveStatus ps.pReset := by
  simp [Params.wellFormed, LiveStatus]

/-- A write to any bit but the two keeps them. -/
theorem liveStatus_putBit {i : Nat} (h5 : 5 ≠ i) (h4 : 4 ≠ i) : LiveStatus (putBit p i b) ↔ LiveStatus p := by
  rw [LiveStatus, getLsbD_putBit, getLsbD_putBit, if_neg (fun h => h5 h.1), if_neg (fun h => h4 h.1), LiveStatus]

@[simp] theorem liveStatus_setC : LiveStatus (setC p b) ↔ LiveStatus p := liveStatus_putBit (by decide) (by decide)
@[simp] theorem liveStatus_setZ : LiveStatus (setZ p b) ↔ LiveStatus p := liveStatus_putBit (by decide) (by decide)
@[simp] theorem liveStatus_setI : LiveStatus (setI p b) ↔ LiveStatus p := liveStatus_putBit (by decide) (by decide)
@[simp] theorem liveStatus_setD : LiveStatus (setD p b) ↔ LiveStatus p := liveStatus_putBit (by decide) (by decide)
@[simp] theorem liveStatus_setV : LiveStatus (setV p b) ↔ LiveStatus p := liveStatus_putBit (by decide) (by decide)
@[simp] theorem liveStatus_setN : LiveStatus (setN p b) ↔ LiveStatus p := liveStatus_putBit (by decide) (by decide)

@[simp] theorem liveStatus_setZN {v : Byte} : LiveStatus (setZN p v) ↔ LiveStatus p := by simp [setZN]

@[simp] theorem liveStatus_setSum {r : Sum8} : LiveStatus (setSum p r) ↔ LiveStatus p := by simp [setSum]

@[simp] theorem liveStatus_setCompare {x m : Byte} : LiveStatus (setCompare p x m) ↔ LiveStatus p := by
  simp [setCompare]

@[simp] theorem liveStatus_setBitTest {a m : Byte} : LiveStatus (setBitTest p a m) ↔ LiveStatus p := by
  simp [setBitTest]

@[simp] theorem liveStatus_setShifted {r : Shifted} : LiveStatus (setShifted p r) ↔ LiveStatus p := by
  simp [setShifted]

/-- BRK's clearing of the live `B` (R25). -/
theorem liveStatus_setB_false (h : LiveStatus p) : LiveStatus (setB p false) :=
  ⟨(getLsbD_setB p false 5).trans h.1, getLsbD_setB p false 4⟩

/-- Whatever byte PLP or RTI pulls (R213, R223). -/
theorem liveStatus_pulledStatus : LiveStatus (pulledStatus p) :=
  ⟨getLsbD_pulledStatus p 5, getLsbD_pulledStatus p 4⟩

end

/-! ## The PPU's position and lists -/

section

variable {p : Ppu} {c : Cart}

/-- The part of `Ppu.Inv` that is not about memories. -/
def Ppu.DotsWf (p : Ppu) : Prop :=
  p.scanline ≤ 261 ∧ p.cycle ≤ 340 ∧ p.nmiOut = false ∧ p.sec.length ≤ 8 ∧
    p.units.length ≤ unitsBound p.scanline p.cycle

theorem Ppu.inv_iff : p.Inv = true ↔ p.DotsWf ∧ p.memWf = true := by simp [Ppu.Inv, Ppu.DotsWf, and_assoc]

/-- A write to the PPU's address space changes no field of the PPU but its two memories (R276). -/
theorem ppuWrite_frame (x : PpuAddr) (d : Byte) :
    (ppuWrite c p x d).1 = { p with nt := (ppuWrite c p x d).1.nt, pal := (ppuWrite c p x d).1.pal } := by
  rcases ppuWrite_cases c p x d with ⟨off, -, -, e⟩ | ⟨-, -, e⟩ | ⟨-, -, e⟩ | ⟨-, e⟩ <;> rw [e]

/-- No write to a register moves the position, raises an NMI request or touches the sprite lists (R261). -/
theorem Ppu.dotsWf_ppuRegWrite (r : BitVec 3) (d : Byte) (h : p.DotsWf) : (ppuRegWrite r d p c).1.DotsWf := by
  unfold ppuRegWrite
  split
  · exact h
  · exact h
  · exact h
  · exact h
  · unfold writeScroll
    split <;> exact h
  · unfold writeAddr
    split <;> exact h
  · simp only [writeData, stepV]
    rw [ppuWrite_frame]
    exact h
  · exact h

/-! ### One dot -/

theorem evalSprite_sec_length (n : BitVec 6) (h : p.sec.length ≤ 8) : (evalSprite p n).sec.length ≤ 8 := by
  unfold evalSprite
  dsimp only
  split
  · split
    · simp only [List.length_append, List.length_singleton]
      omega
    · exact h
  · exact h

theorem tickEvaluate_sec_length (h : p.sec.length ≤ 8) : (tickEvaluate p).sec.length ≤ 8 := by
  unfold tickEvaluate
  dsimp only
  split <;> split
  · exact evalSprite_sec_length _ (Nat.zero_le 8)
  · exact Nat.zero_le 8
  · exact evalSprite_sec_length _ h
  · exact h

theorem tickEvaluate_units : (tickEvaluate p).units = p.units := by rw [tickEvaluate_frame]

theorem tickEvaluate_cycle : (tickEvaluate p).cycle = p.cycle := by rw [tickEvaluate_frame]

theorem tickFetchSprite_sec : (tickFetchSprite c p).sec = p.sec := by rw [tickFetchSprite_frame]

/-- A sprite unit is fetched at a dot `257 + 8k` only, and one at a time (R280, R291). -/
theorem tickFetchSprite_units_length :
    (tickFetchSprite c p).units.length ≤
      p.units.length + if 257 ≤ p.cycle ∧ p.cycle ≤ 320 ∧ (p.cycle - 257) % 8 = 0 then 1 else 0 := by
  unfold tickFetchSprite fetchSprite
  split
  · split <;> simp
  · simp

/-- The PPU after dot 257 dropped the units of the line before (R280). -/
def dropUnits (p : Ppu) : Ppu := { p with units := if p.cycle = 257 then [] else p.units }

theorem dropUnits_cycle : (dropUnits p).cycle = p.cycle := rfl

/-- Step D of a dot: nothing on a line that does not render, else the drop and, on a visible line with rendering on, the
evaluation and the fetch (R280). -/
theorem tickSprites_cases (c : Cart) (p : Ppu) :
    (239 < p.scanline ∧ tickSprites c p = p) ∨
    tickSprites c p = dropUnits p ∨
    (p.scanline ≤ 239 ∧ tickSprites c p = tickFetchSprite c (tickEvaluate (dropUnits p))) := by
  have hq : (if p.cycle = 257 then { p with units := [] } else p) = dropUnits p := by
    unfold dropUnits
    split <;> rfl
  unfold tickSprites
  rw [hq]
  cases hl : p.renderLine with
  | false =>
    simp only [Ppu.renderLine, Bool.or_eq_false_iff, decide_eq_false_iff_not] at hl
    exact .inl ⟨by omega, rfl⟩
  | true =>
    by_cases hv : p.scanline ≤ 239 ∧ (dropUnits p).rendering = true
    · exact .inr (.inr ⟨hv.1, if_pos hv⟩)
    · exact .inr (.inl (if_neg hv))

/-- Secondary OAM never holds more than eight sprites (R290). -/
theorem tickSprites_sec_length (h : p.sec.length ≤ 8) : (tickSprites c p).sec.length ≤ 8 := by
  rcases tickSprites_cases c p with ⟨-, e⟩ | e | ⟨-, e⟩ <;> rw [e]
  · exact h
  · exact h
  · rw [tickFetchSprite_sec]
    exact tickEvaluate_sec_length h

theorem unitsBound_le (y x : Nat) : unitsBound y x ≤ 8 := by
  unfold unitsBound
  split <;> omega

theorem dropUnits_units_length (h : p.units.length ≤ unitsBound p.scanline p.cycle) :
    (dropUnits p).units.length ≤ if p.cycle = 257 then 0 else unitsBound p.scanline p.cycle := by
  unfold dropUnits
  dsimp only
  split
  · exact Nat.le_refl 0
  · exact h

/-- Where the position goes: one dot on, or to the start of the next line (R281). -/
theorem advance_cases (p : Ppu) :
    (p.cycle = 340 ∧ (advance p).cycle = 0 ∧ (advance p).scanline = if p.scanline = 261 then 0 else p.scanline + 1) ∨
    (p.cycle ≠ 340 ∧ (advance p).cycle = p.cycle + 1 ∧ (advance p).scanline = p.scanline) := by
  unfold advance
  by_cases hx : p.cycle = 340
  · by_cases hy : p.scanline = 261 <;> simp [hx, hy]
  · simp [hx]

theorem advance_scanline_cycle_le (h1 : p.scanline ≤ 261) (h2 : p.cycle ≤ 340) :
    (advance p).scanline ≤ 261 ∧ (advance p).cycle ≤ 340 := by
  rcases advance_cases p with ⟨-, ex, ey⟩ | ⟨hx, ex, ey⟩ <;> rw [ex, ey]
  · split <;> omega
  · omega

theorem unitsBound_of_hidden {y : Nat} (h : 239 < y) (x : Nat) : unitsBound y x = 8 := if_neg (by omega)

/-- Below the visible lines the bound is the general one. -/
theorem unitsBound_advance_hidden (h : 239 < p.scanline) : unitsBound (advance p).scanline (advance p).cycle = 8 := by
  rcases advance_cases p with ⟨-, ex, -⟩ | ⟨-, -, ey⟩
  · rw [ex]
    exact if_neg (by omega)
  · rw [ey]
    exact unitsBound_of_hidden h _

/-- The bound starts from none at dot 257 and grows by one over each fetching dot of a visible line. -/
theorem unitsBound_advance (p : Ppu) :
    (if p.cycle = 257 then 0 else unitsBound p.scanline p.cycle) +
        (if p.scanline ≤ 239 ∧ 257 ≤ p.cycle ∧ p.cycle ≤ 320 ∧ (p.cycle - 257) % 8 = 0 then 1 else 0) ≤
      unitsBound (advance p).scanline (advance p).cycle := by
  have h8 := unitsBound_le p.scanline p.cycle
  rcases advance_cases p with ⟨hx, ex, -⟩ | ⟨-, ex, ey⟩ <;> rw [ex]
  · have h0 : unitsBound (advance p).scanline 0 = 8 := if_neg (by omega)
    rw [h0, if_neg (by omega), if_neg (by omega)]
    exact h8
  · rw [ey]
    unfold unitsBound
    split_ifs <;> omega

/-- The units stay within the bound of the position the dot advances to (R280, R291). -/
theorem tickSprites_units_length (h : p.units.length ≤ unitsBound p.scanline p.cycle) :
    (tickSprites c p).units.length ≤ unitsBound (advance p).scanline (advance p).cycle := by
  have hd := dropUnits_units_length h
  have hb := unitsBound_advance p
  rcases tickSprites_cases c p with ⟨hy, e⟩ | e | ⟨hy, e⟩ <;> rw [e]
  · rw [unitsBound_advance_hidden hy]
    exact Nat.le_trans h (unitsBound_le _ _)
  · omega
  · have hf := tickFetchSprite_units_length (c := c) (p := tickEvaluate (dropUnits p))
    rw [tickEvaluate_units, tickEvaluate_cycle, dropUnits_cycle] at hf
    simp only [hy, true_and] at hb
    omega

/-- The PPU after the Bus has taken its NMI request, if it raised one (R245). -/
def Ppu.nmiTaken (p : Ppu) : Ppu := { p with nmiOut := false }

theorem Ppu.nmiTaken_of_quiet (h : p.nmiOut = false) : p.nmiTaken = p := by
  rw [Ppu.nmiTaken, ← h]

theorem Ppu.memWf_nmiTaken : p.nmiTaken.memWf = p.memWf := Ppu.memWf_congr rfl rfl rfl rfl

theorem Ppu.dotsWf_nmiTaken :
    p.nmiTaken.DotsWf ↔
      p.scanline ≤ 261 ∧ p.cycle ≤ 340 ∧ p.sec.length ≤ 8 ∧ p.units.length ≤ unitsBound p.scanline p.cycle := by
  simp [Ppu.DotsWf, Ppu.nmiTaken]

/-- A dot keeps the position in the frame and the lists in range (R281, R290, R291). -/
theorem Ppu.dotsWf_tick (c : Cart) (h : p.DotsWf) : (ppuTick c p).nmiTaken.DotsWf := by
  obtain ⟨hy, hx, -, hsec, hunits⟩ := h
  obtain ⟨ey, ex, -⟩ := ppuTick_position c p
  obtain ⟨ay, ax⟩ := advance_scanline_cycle_le hy hx
  have hs : (ppuTick c p).sec.length ≤ 8 := by
    simpa [ppuTick] using tickSprites_sec_length (by simpa using hsec)
  have hu : (ppuTick c p).units.length ≤ unitsBound (ppuTick c p).scanline (ppuTick c p).cycle := by
    have hq := tickSprites_units_length (c := c) (p := tickBackground c (tickPixel (tickFlags p)))
      (by simpa using hunits)
    obtain ⟨qy, qx, -⟩ := advance_position_congr (q := tickBackground c (tickPixel (tickFlags p))) (p := p)
      (by simp) (by simp) (by simp)
    rw [qy, qx, ← ey, ← ex] at hq
    rwa [ppuTick, advance_units]
  exact Ppu.dotsWf_nmiTaken.mpr ⟨ey ▸ ay, ex ▸ ax, hs, hu⟩

end

/-! ## The mapper -/

/-- A bit put in above `n` bits leaves no bit above `n + 1`. -/
theorem toNat_or_bit_lt {x : BitVec 5} {n : Nat} (b : BitVec 1) (h : x.toNat < 2 ^ n) :
    (x ||| (b.setWidth 5 <<< n)).toNat < 2 ^ (n + 1) := by
  have hn : 2 ^ n < 2 ^ (n + 1) := Nat.pow_lt_pow_right (by decide) (Nat.lt_succ_self n)
  have hb : (b.setWidth 5).toNat ≤ 1 := by
    have := b.isLt
    rw [BitVec.toNat_setWidth]
    omega
  have hs : (b.setWidth 5 <<< n).toNat < 2 ^ (n + 1) := by
    rw [BitVec.toNat_shiftLeft, Nat.shiftLeft_eq]
    calc
      _ ≤ (b.setWidth 5).toNat * 2 ^ n := Nat.mod_le _ _
      _ ≤ 1 * 2 ^ n := Nat.mul_le_mul_right _ hb
      _ < 2 ^ (n + 1) := (Nat.one_mul _).symm ▸ hn
  rw [BitVec.toNat_or]
  exact Nat.or_lt_two_pow (Nat.lt_trans h hn) hs

/-- A byte into the serial port keeps the count below five and no bit above it (R347). -/
theorem Mapper.inv_mmc1Serial {r : Mmc1} (a : Word) (d : Byte) (h : (Mapper.mmc1 r).Inv = true) :
    (Mapper.mmc1 (mmc1Serial r a d)).Inv = true := by
  simp only [Mapper.Inv, Bool.and_eq_true, decide_eq_true_eq] at h ⊢
  obtain ⟨hcount, hshift⟩ := h
  unfold mmc1Serial
  split
  · simp
  · dsimp only
    split
    · split <;> simp
    · exact ⟨by dsimp only; omega, toNat_or_bit_lt _ hshift⟩

end Sys2Proof.Machine
end

section
/-! PROOF. Every operation, every instruction and every clock keeps the invariant, and so does every run of host
actions (R6, R423). -/

namespace Sys2Proof.Machine

variable {s : State} {a : Word} {d v : Byte}

/-! ## The invariant of a state -/

theorem Cart.inv_iff {c : Cart} : c.Inv = true ↔ 1 ≤ c.prgBanks ∧ c.memWf = true ∧ c.mapper.Inv = true := by
  simp [Cart.Inv, and_assoc]

/-- The invariant in its parts, the memories taken together. -/
theorem State.inv_iff :
    s.Inv = true ↔
      LiveStatus s.cpu.p ∧ s.ppu.DotsWf ∧ 1 ≤ s.cart.prgBanks ∧ s.cart.mapper.Inv = true ∧ LiveStatus s.params.pReset ∧
        s.memWf = true := by
  simp only [State.Inv, Bool.and_eq_true, Cpu.inv_iff, Ppu.inv_iff, Cart.inv_iff, Params.wellFormed_iff, State.memWf_iff]
  tauto

theorem State.liveStatus_of_inv (h : s.Inv = true) : LiveStatus s.cpu.p := (State.inv_iff.mp h).1

/-! ## Updates -/

@[simp] theorem State.inv_setPc (w : Word) : (s.setPc w).Inv = s.Inv := rfl
@[simp] theorem State.inv_setAdr (w : Word) : (s.setAdr w).Inv = s.Inv := rfl
@[simp] theorem State.inv_setSp (w : Byte) : (s.setSp w).Inv = s.Inv := rfl
@[simp] theorem State.inv_setCycles (n : Nat) : (s.setCycles n).Inv = s.Inv := rfl
@[simp] theorem State.inv_addCycles (n : Nat) : (s.addCycles n).Inv = s.Inv := rfl

/-- The CPU's part of the invariant is its status register. -/
theorem State.inv_mapCpu {f : Cpu → Cpu} (h : s.Inv = true) (hf : LiveStatus (f s.cpu).p) :
    (s.mapCpu f).Inv = true := by
  obtain ⟨-, hs⟩ := State.inv_iff.mp h
  exact State.inv_iff.mpr ⟨hf, hs⟩

theorem State.inv_setP (h : s.Inv = true) (hv : LiveStatus v) : (s.setP v).Inv = true := State.inv_mapCpu h hv

/-! ## The bus and the stack -/

theorem State.inv_afterRead (h : s.Inv = true) : (afterRead a s).Inv = true := by
  rw [afterRead_frame]
  exact h

theorem Ppu.dotsWf_afterWrite (h : s.ppu.DotsWf) : (afterWrite a d s).ppu.DotsWf := by
  unfold afterWrite
  rcases busWrite_cases a s d with ⟨-, e⟩ | ⟨-, e⟩ | ⟨-, -, e⟩ | ⟨-, e⟩ | ⟨-, e⟩ | ⟨-, -, -, e⟩ | ⟨-, r, hr, e⟩ |
    ⟨-, -, -, -, e⟩ <;> rw [e]
  · exact h
  · exact h
  · exact Ppu.dotsWf_ppuRegWrite _ d h
  · exact h
  · exact h
  · exact h
  · exact h
  · exact h

theorem Mapper.inv_afterWrite (h : s.cart.mapper.Inv = true) : (afterWrite a d s).cart.mapper.Inv = true := by
  unfold afterWrite
  rcases busWrite_cases a s d with ⟨-, e⟩ | ⟨-, e⟩ | ⟨-, -, e⟩ | ⟨-, e⟩ | ⟨-, e⟩ | ⟨-, -, -, e⟩ | ⟨-, r, hr, e⟩ |
    ⟨-, -, -, -, e⟩ <;> rw [e]
  · exact h
  · exact h
  · dsimp only
    rw [(ppuRegWrite_cart s.cart d (a.setWidth 3) s.ppu).1]
    exact h
  · exact h
  · exact h
  · exact h
  · exact Mapper.inv_mmc1Serial a d (hr ▸ h)
  · exact h

theorem State.inv_afterWrite (h : s.Inv = true) : (afterWrite a d s).Inv = true := by
  obtain ⟨hc, hp, hb, hm, hr, hw⟩ := State.inv_iff.mp h
  obtain ⟨ec, er, -, eb, -⟩ := afterWrite_fixed a s d
  exact State.inv_iff.mpr ⟨ec ▸ hc, Ppu.dotsWf_afterWrite hp, eb ▸ hb, Mapper.inv_afterWrite hm, er ▸ hr,
    State.memWf_afterWrite hw⟩

theorem busRead_ensures_inv (h : s.Inv = true) : Ensures (busRead a s) (·.2.Inv) := by
  intro r hr
  obtain ⟨-, rfl⟩ := busRead_eq_next _ _ hr
  exact State.inv_afterRead h

theorem busWrite_ensures_inv (h : s.Inv = true) : Ensures (busWrite a d s) (·.Inv) := by
  intro t ht
  obtain ⟨-, rfl⟩ := busWrite_eq_next _ _ _ ht
  exact State.inv_afterWrite h

theorem State.inv_pushed (h : s.Inv = true) : (pushed v s).Inv = true := by
  obtain ⟨hc, hp, hb, hm, hr, hw⟩ := State.inv_iff.mp h
  exact State.inv_iff.mpr ⟨hc, hp, hb, hm, hr, State.memWf_pushed hw⟩

theorem push_ensures_inv (h : s.Inv = true) : Ensures (push v s) (·.Inv) := by
  rw [push_eq, ensures_next]
  exact State.inv_pushed h

theorem pull_ensures_inv (h : s.Inv = true) : Ensures (pull s) (·.2.Inv) := by
  rw [pull_eq, ensures_next]
  exact h

/-! ## Interrupts and reset -/

/-- Interrupt entry sets `I` in the live status and pushes to RAM (R381). -/
theorem State.inv_entered (status : Byte) (vec : Word) (h : s.Inv = true) : (entered status vec s).Inv = true := by
  unfold entered
  have ht := State.inv_pushed (v := status) (State.inv_pushed (v := loByte s.cpu.pc)
    (State.inv_pushed (v := hiByte s.cpu.pc) h))
  rw [State.inv_setPc]
  exact State.inv_setP ht (liveStatus_setI.mpr (State.liveStatus_of_inv h))

theorem cpuNmi_ensures_inv (h : s.Inv = true) : Ensures (cpuNmi s) (·.Inv) := by
  rw [cpuNmi_eq, ensures_next, State.inv_addCycles]
  exact State.inv_entered _ _ h

theorem cpuIrq_ensures_inv (h : s.Inv = true) : Ensures (cpuIrq s) (·.Inv) := by
  cases hi : flagI s.cpu.p with
  | true =>
    rw [cpuIrq_masked _ hi, ensures_next]
    exact h
  | false =>
    rw [cpuIrq_eq _ hi, ensures_next, State.inv_addCycles]
    exact State.inv_entered _ _ h

/-- Reset loads the parameter `P_RESET`, whose bits 5 and 4 are constrained (R8, R410). -/
theorem busReset_ensures_inv (h : s.Inv = true) : Ensures (busReset s) (·.Inv) := by
  obtain ⟨-, hp, hb, hm, hr, hw⟩ := State.inv_iff.mp h
  rw [busReset_eq, ensures_next]
  exact State.inv_iff.mpr ⟨hr, hp, hb, hm, hr, hw⟩

theorem takeException_ensures_inv (status : Byte) {vec : Word} (h1 : 0x8000 ≤ vec.toNat)
    (h2 : 0x8000 ≤ (vec + 1).toNat) (h : s.Inv = true) : Ensures (takeException status vec s) (·.Inv) := by
  rw [takeException_eq _ _ _ h1 h2, ensures_next]
  exact State.inv_entered _ _ h

theorem returnFromException_ensures_inv (h : s.Inv = true) : Ensures (returnFromException s) (·.Inv) := by
  rw [returnFromException_eq, ensures_next, State.inv_setPc]
  exact State.inv_setP h liveStatus_pulledStatus

/-! ## The instruction shapes -/

theorem readPointer_ensures_inv (pl ph : Word) (h : s.Inv = true) :
    Ensures (readPointer pl ph s) (·.2.Inv) :=
  ensures_andThen (busRead_ensures_inv h) fun _ h1 =>
    ensures_andThen (busRead_ensures_inv h1) fun _ h2 => ensures_next.mpr h2

theorem resolve_ensures_inv (o : Operand) (h : s.Inv = true) : Ensures (resolve o s) (·.2.Inv) := by
  cases o with
  | ind w => exact ensures_andThen (readPointer_ensures_inv _ _ h) fun _ h1 => ensures_next.mpr h1
  | _ =>
    rw [resolve_eq _ _ (by simp [Operand.mode]), ensures_next]
    exact h

theorem readOperand_ensures_inv (o : Operand) (h : s.Inv = true) :
    Ensures (readOperand o s) (·.2.Inv) := by
  unfold readOperand
  split
  · exact ensures_next.mpr h
  · exact ensures_next.mpr h
  · exact busRead_ensures_inv h

theorem writeOperand_ensures_inv (o : Operand) (h : s.Inv = true) :
    Ensures (writeOperand o v s) (·.Inv) := by
  unfold writeOperand
  split
  · exact ensures_next.mpr (State.inv_mapCpu h (State.liveStatus_of_inv h))
  · exact busWrite_ensures_inv h

theorem readOp_ensures_inv {base : Nat} {plus : Bool} {o : Operand} {f : Byte → Cpu → Cpu}
    (hf : ∀ m c, LiveStatus (f m c).p ↔ LiveStatus c.p) (h : s.Inv = true) :
    Ensures (readOp base plus o f s) (·.Inv) :=
  ensures_andThen (resolve_ensures_inv o h) fun _ h1 =>
    ensures_andThen (readOperand_ensures_inv o h1) fun _ h2 => by
      rw [ensures_next, State.inv_addCycles]
      exact State.inv_mapCpu h2 ((hf _ _).mpr (State.liveStatus_of_inv h2))

theorem storeOp_ensures_inv {base : Nat} {o : Operand} {src : Cpu → Byte} (h : s.Inv = true) :
    Ensures (storeOp base o src s) (·.Inv) :=
  ensures_andThen (resolve_ensures_inv o h) fun _ h1 => busWrite_ensures_inv h1

theorem modifyOp_ensures_inv {base : Nat} {o : Operand} {f : Byte → Byte → Byte × Byte}
    (hf : ∀ m p, LiveStatus (f m p).2 ↔ LiveStatus p) (h : s.Inv = true) :
    Ensures (modifyOp base o f s) (·.Inv) :=
  ensures_andThen (resolve_ensures_inv o h) fun _ h1 =>
    ensures_andThen (readOperand_ensures_inv o h1) fun _ h2 =>
      ensures_andThen (writeOperand_ensures_inv o h2) fun _ h3 =>
        ensures_next.mpr (State.inv_setP h3 ((hf _ _).mpr (State.liveStatus_of_inv h3)))

theorem registerOp_ensures_inv {base : Nat} {f : Cpu → Cpu} (hf : ∀ c, LiveStatus (f c).p ↔ LiveStatus c.p)
    (h : s.Inv = true) : Ensures (registerOp base f s) (·.Inv) :=
  ensures_next.mpr (State.inv_mapCpu (s := s.setCycles base) h ((hf _).mpr (State.liveStatus_of_inv h)))

theorem branchOp_ensures_inv {cond : Byte → Bool} {off : Byte} (h : s.Inv = true) :
    Ensures (branchOp cond off s) (·.Inv) := by
  cases hc : cond s.cpu.p with
  | true =>
    rw [branchOp_taken _ _ _ hc, ensures_next]
    exact h
  | false =>
    rw [branchOp_untaken _ _ _ hc, ensures_next]
    exact h

/-! ## The instructions that are no shape of their own -/

theorem execJmpAbs_ensures_inv (w : Word) (h : s.Inv = true) : Ensures (execJmpAbs w s) (·.Inv) :=
  ensures_andThen (resolve_ensures_inv _ h) fun _ h1 => ensures_next.mpr h1

theorem execJmpInd_ensures_inv (w : Word) (h : s.Inv = true) : Ensures (execJmpInd w s) (·.Inv) :=
  ensures_andThen (resolve_ensures_inv _ h) fun _ h1 => ensures_next.mpr h1

theorem execJsr_ensures_inv (w : Word) (h : s.Inv = true) : Ensures (execJsr w s) (·.Inv) :=
  ensures_andThen (resolve_ensures_inv _ h) fun _ h1 =>
    ensures_andThen (push_ensures_inv h1) fun _ h2 =>
      ensures_andThen (push_ensures_inv h2) fun _ h3 => ensures_next.mpr h3

theorem execRts_ensures_inv (h : s.Inv = true) : Ensures (execRts s) (·.Inv) :=
  ensures_andThen (pull_ensures_inv (s := s.setCycles 6) h) fun _ h1 =>
    ensures_andThen (pull_ensures_inv h1) fun _ h2 => ensures_next.mpr h2

theorem execPla_ensures_inv (h : s.Inv = true) : Ensures (execPla s) (·.Inv) :=
  ensures_andThen (pull_ensures_inv (s := s.setCycles 4) h) fun _ h1 =>
    ensures_next.mpr (State.inv_mapCpu h1 (liveStatus_setZN.mpr (State.liveStatus_of_inv h1)))

theorem execPlp_ensures_inv (h : s.Inv = true) : Ensures (execPlp s) (·.Inv) :=
  ensures_andThen (pull_ensures_inv (s := s.setCycles 4) h) fun _ h1 =>
    ensures_next.mpr (State.inv_setP h1 liveStatus_pulledStatus)

theorem execBrk_ensures_inv (h : s.Inv = true) : Ensures (execBrk s) (·.Inv) :=
  ensures_andThen
    (takeException_ensures_inv _ (by decide) (by decide) (s := (s.setCycles 7).setPc (s.cpu.pc + 1)) h) fun _ h1 =>
    ensures_next.mpr (State.inv_setP h1 (liveStatus_setB_false (State.liveStatus_of_inv h1)))

/-! ## Every instruction -/

/-- An instruction is one of the shapes, with an effect that writes neither bit 4 nor bit 5 of the live status, or one
of those treated above. -/
theorem exec_ensures_inv (i : Instr) (h : s.Inv = true) : Ensures (exec i s) (·.Inv) := by
  unfold exec
  cases i with
  | ldaIzx | ldaZp0 | ldaImm | ldaAbs | ldaIzy | ldaZpx | ldaAby | ldaAbx =>
    exact readOp_ensures_inv (by simp [ldaEffect]) h
  | ldxImm | ldxZp0 | ldxAbs | ldxZpy | ldxAby => exact readOp_ensures_inv (by simp [ldxEffect]) h
  | ldyImm | ldyZp0 | ldyAbs | ldyZpx | ldyAbx => exact readOp_ensures_inv (by simp [ldyEffect]) h
  | staIzx | staZp0 | staAbs | staIzy | staZpx | staAby | staAbx | stxZp0 | stxAbs | stxZpy | styZp0 | styAbs | styZpx =>
    exact storeOp_ensures_inv h
  | tax => exact registerOp_ensures_inv (by simp [taxEffect]) h
  | tay => exact registerOp_ensures_inv (by simp [tayEffect]) h
  | txa => exact registerOp_ensures_inv (by simp [txaEffect]) h
  | tya => exact registerOp_ensures_inv (by simp [tyaEffect]) h
  | tsx => exact registerOp_ensures_inv (by simp [tsxEffect]) h
  | txs => exact registerOp_ensures_inv (by simp [txsEffect]) h
  | adcIzx | adcZp0 | adcImm | adcAbs | adcIzy | adcZpx | adcAby | adcAbx =>
    exact readOp_ensures_inv (by simp [adcEffect]) h
  | sbcIzx | sbcZp0 | sbcImm | sbcAbs | sbcIzy | sbcZpx | sbcAby | sbcAbx =>
    exact readOp_ensures_inv (by simp [sbcEffect]) h
  | cmpIzx | cmpZp0 | cmpImm | cmpAbs | cmpIzy | cmpZpx | cmpAby | cmpAbx =>
    exact readOp_ensures_inv (by simp [cmpEffect]) h
  | cpxImm | cpxZp0 | cpxAbs => exact readOp_ensures_inv (by simp [cpxEffect]) h
  | cpyImm | cpyZp0 | cpyAbs => exact readOp_ensures_inv (by simp [cpyEffect]) h
  | incZp0 | incAbs | incZpx | incAbx => exact modifyOp_ensures_inv (by simp [incResult]) h
  | decZp0 | decAbs | decZpx | decAbx => exact modifyOp_ensures_inv (by simp [decResult]) h
  | inx => exact registerOp_ensures_inv (by simp [inxEffect]) h
  | iny => exact registerOp_ensures_inv (by simp [inyEffect]) h
  | dex => exact registerOp_ensures_inv (by simp [dexEffect]) h
  | dey => exact registerOp_ensures_inv (by simp [deyEffect]) h
  | andIzx | andZp0 | andImm | andAbs | andIzy | andZpx | andAby | andAbx =>
    exact readOp_ensures_inv (by simp [andEffect]) h
  | oraIzx | oraZp0 | oraImm | oraAbs | oraIzy | oraZpx | oraAby | oraAbx =>
    exact readOp_ensures_inv (by simp [oraEffect]) h
  | eorIzx | eorZp0 | eorImm | eorAbs | eorIzy | eorZpx | eorAby | eorAbx =>
    exact readOp_ensures_inv (by simp [eorEffect]) h
  | bitZp0 | bitAbs => exact readOp_ensures_inv (by simp [bitEffect]) h
  | aslZp0 | aslAcc | aslAbs | aslZpx | aslAbx => exact modifyOp_ensures_inv (by simp [aslResult]) h
  | lsrZp0 | lsrAcc | lsrAbs | lsrZpx | lsrAbx => exact modifyOp_ensures_inv (by simp [lsrResult]) h
  | rolZp0 | rolAcc | rolAbs | rolZpx | rolAbx => exact modifyOp_ensures_inv (by simp [rolResult]) h
  | rorZp0 | rorAcc | rorAbs | rorZpx | rorAbx => exact modifyOp_ensures_inv (by simp [rorResult]) h
  | jmpAbs w => exact execJmpAbs_ensures_inv w h
  | jmpInd w => exact execJmpInd_ensures_inv w h
  | jsr w => exact execJsr_ensures_inv w h
  | rts => exact execRts_ensures_inv h
  | bcc | bcs | beq | bne | bmi | bpl | bvc | bvs => exact branchOp_ensures_inv h
  | pha | php => exact push_ensures_inv (s := s.setCycles 3) h
  | pla => exact execPla_ensures_inv h
  | plp => exact execPlp_ensures_inv h
  | clc => exact registerOp_ensures_inv (by simp [clcEffect]) h
  | sec => exact registerOp_ensures_inv (by simp [secEffect]) h
  | cli => exact registerOp_ensures_inv (by simp [cliEffect]) h
  | sei => exact registerOp_ensures_inv (by simp [seiEffect]) h
  | cld => exact registerOp_ensures_inv (by simp [cldEffect]) h
  | sed => exact registerOp_ensures_inv (by simp [sedEffect]) h
  | clv => exact registerOp_ensures_inv (by simp [clvEffect]) h
  | nop => exact registerOp_ensures_inv (fun _ => Iff.rfl) h
  | brk => exact execBrk_ensures_inv h
  | rti => exact returnFromException_ensures_inv (s := s.setCycles 6) h

/-! ## Fetch, dot and clock -/

theorem fetchByte_ensures_inv (h : s.Inv = true) : Ensures (fetchByte s) (·.2.Inv) :=
  ensures_andThen (busRead_ensures_inv h) fun _ h1 => ensures_next.mpr h1

theorem fetchBytes_ensures_inv (n : Nat) (h : s.Inv = true) : Ensures (fetchBytes n s) (·.2.Inv) := by
  induction n generalizing s with
  | zero => exact ensures_next.mpr h
  | succ n ih =>
    exact ensures_andThen (fetchByte_ensures_inv h) fun _ h1 =>
      ensures_andThen (ih h1) fun _ h2 => ensures_next.mpr h2

theorem fetchInstr_ensures_inv (h : s.Inv = true) : Ensures (fetchInstr s) (·.2.Inv) := by
  refine ensures_andThen (fetchByte_ensures_inv h) fun op h1 => ?_
  split
  · exact ensures_fault
  · refine ensures_andThen (fetchBytes_ensures_inv _ h1) fun bs h2 => ?_
    split
    · exact ensures_next.mpr h2
    · exact ensures_fault

theorem runInstr_ensures_inv (h : s.Inv = true) : Ensures (runInstr s) (·.Inv) :=
  ensures_andThen (fetchInstr_ensures_inv h) fun r h1 => exec_ensures_inv r.1 h1

/-- Once a dot's NMI request is taken, the machine meets the invariant again (R280 to R282). -/
theorem State.inv_tick (h : s.Inv = true) : State.Inv { s with ppu := (ppuTick s.cart s.ppu).nmiTaken } = true := by
  obtain ⟨hc, hp, hb, hm, hr, hw⟩ := State.inv_iff.mp h
  obtain ⟨hwb, hwp, hwc⟩ := State.memWf_iff.mp hw
  have ht : (ppuTick s.cart s.ppu).nmiTaken.memWf = true := Ppu.memWf_nmiTaken.trans (Ppu.memWf_tick s.cart hwp)
  exact State.inv_iff.mpr ⟨hc, Ppu.dotsWf_tick s.cart hp, hb, hm, hr, State.memWf_iff.mpr ⟨hwb, ht, hwc⟩⟩

theorem ppuDot_ensures_inv (h : s.Inv = true) : Ensures (ppuDot s) (·.Inv) := by
  have ht := State.inv_tick h
  cases hn : (ppuTick s.cart s.ppu).nmiOut with
  | true =>
    rw [ppuDot_nmi _ hn]
    exact cpuNmi_ensures_inv ht
  | false =>
    rw [ppuDot_quiet _ hn, ensures_next, ← Ppu.nmiTaken_of_quiet hn]
    exact ht

theorem threeDots_ensures_inv (h : s.Inv = true) : Ensures (threeDots s) (·.Inv) :=
  ensures_andThen (ppuDot_ensures_inv h) fun _ h1 =>
    ensures_andThen (ppuDot_ensures_inv h1) fun _ h2 => ppuDot_ensures_inv h2

theorem cpuClock_ensures_inv (h : s.Inv = true) : Ensures (cpuClock s) (·.Inv) := by
  by_cases hc : s.cpu.cycles = 0
  · rw [cpuClock_running _ hc]
    exact ensures_andThen (runInstr_ensures_inv h) fun _ h1 => ensures_next.mpr h1
  · rw [cpuClock_owing _ hc, ensures_next]
    exact h

theorem step_ensures_inv (h : s.Inv = true) : Ensures (step s) (·.Inv) :=
  ensures_andThen (threeDots_ensures_inv h) fun _ h1 =>
    ensures_andThen (cpuClock_ensures_inv h1) fun _ h2 => ensures_next.mpr h2

/-! ## Host actions -/

theorem hostAct_ensures_inv (act : HostAction) (h : s.Inv = true) : Ensures (hostAct act s) (·.Inv) := by
  cases act with
  | clock => exact step_ensures_inv h
  | irq => exact cpuIrq_ensures_inv h
  | reset => exact busReset_ensures_inv h
  | buttons b => exact ensures_next.mpr h

theorem hostRun_ensures_inv (acts : List HostAction) (h : s.Inv = true) :
    Ensures (hostRun acts s) (·.Inv) := by
  induction acts generalizing s with
  | nil => exact ensures_next.mpr h
  | cons act acts ih => exact ensures_andThen (hostAct_ensures_inv act h) fun _ h1 => ih h1

/-- Settles O41, by induction on the list of actions: every one of them keeps the invariant. -/
theorem hostActionsKeepTheInvariant : Obligations.HostActionsKeepTheInvariant := by
  unfold Obligations.HostActionsKeepTheInvariant
  intro hs s t h ht
  exact hostRun_ensures_inv hs h t ht

end Sys2Proof.Machine
end

section
/-! PROOF. Clocks in which no NMI can come and cycles are owed (R27, R108, R245): three dots, and one
cycle counted down. -/

namespace Sys2Proof.Machine

variable {s : State} {p : Ppu}

/-- No NMI request is pending and none can be raised (R282). -/
def Ppu.Quiet (p : Ppu) : Prop := p.nmiOut = false ∧ p.nmiEnable = false

theorem ppuTick_nmiEnable (c : Cart) (p : Ppu) : (ppuTick c p).nmiEnable = p.nmiEnable := by
  rw [Ppu.nmiEnable, (ppuTick_frame c p).1, Ppu.nmiEnable]

theorem Ppu.quiet_tick (c : Cart) (h : p.Quiet) : (ppuTick c p).Quiet := by
  obtain ⟨hout, hen⟩ := h
  exact ⟨by simp [ppuTick_nmiOut, hout, hen], (ppuTick_nmiEnable c p).trans hen⟩

theorem Ppu.quiet_ticks (c : Cart) (n : Nat) (h : p.Quiet) : (ppuTicks c n p).Quiet := by
  induction n generalizing p with
  | zero => exact h
  | succ n ih => exact ih (Ppu.quiet_tick c h)

theorem ppuTicks_add (c : Cart) (m n : Nat) (p : Ppu) : ppuTicks c (m + n) p = ppuTicks c n (ppuTicks c m p) := by
  induction m generalizing p with
  | zero => rw [Nat.zero_add, ppuTicks]
  | succ m ih => rw [Nat.succ_add, ppuTicks, ih, ppuTicks]

/-- The machine with its PPU changed. -/
def State.withPpu (s : State) (p : Ppu) : State := { s with ppu := p }

theorem State.withPpu_cpu (s : State) (p : Ppu) : (s.withPpu p).cpu = s.cpu := rfl

theorem ppuDot_withPpu (s : State) (h : p.Quiet) : ppuDot (s.withPpu p) = .next (s.withPpu (ppuTick s.cart p)) :=
  ppuDot_quiet (s.withPpu p) (Ppu.quiet_tick s.cart h).1

/-- Three dots that raise no NMI change the PPU alone (R245). -/
theorem threeDots_withPpu (s : State) (h : p.Quiet) :
    threeDots (s.withPpu p) = .next (s.withPpu (ppuTicks s.cart 3 p)) := by
  have h1 := Ppu.quiet_tick s.cart h
  have h2 := Ppu.quiet_tick s.cart h1
  rw [threeDots, ppuDot_withPpu s h, andThen_next, ppuDot_withPpu s h1, andThen_next, ppuDot_withPpu s h2]
  simp only [ppuTicks]

/-- The machine after `k` of its owed cycles have passed without an NMI (R27, R245). -/
def State.drained (s : State) (k : Nat) : State :=
  ((s.withPpu (ppuTicks s.cart (3 * k) s.ppu)).setCycles (s.cpu.cycles - k)).mapBus fun b =>
    { b with master := b.master + k }

theorem State.drained_ppu (s : State) (k : Nat) : (s.drained k).ppu = ppuTicks s.cart (3 * k) s.ppu := rfl

theorem State.drained_cycles (s : State) (k : Nat) : (s.drained k).cpu.cycles = s.cpu.cycles - k := rfl

theorem State.drained_zero (s : State) : s.drained 0 = s := by
  rw [State.drained, Nat.mul_zero, ppuTicks, Nat.sub_zero]
  rfl

theorem State.drained_succ (s : State) (k : Nat) : (s.drained 1).drained k = s.drained (k + 1) := by
  have hp : ppuTicks s.cart (3 * k) (ppuTicks s.cart (3 * 1) s.ppu) = ppuTicks s.cart (3 * (k + 1)) s.ppu := by
    rw [← ppuTicks_add, ← Nat.mul_add, Nat.add_comm]
  have hc : s.cpu.cycles - 1 - k = s.cpu.cycles - (k + 1) := by omega
  have hm : s.bus.master + 1 + k = s.bus.master + (k + 1) := by omega
  simp only [State.drained, State.withPpu, State.setCycles, State.mapCpu, State.mapBus, hp, hc, hm]

/-- A clock that owes a cycle runs no instruction (R108). -/
theorem step_owing (h : s.cpu.cycles ≠ 0) (hq : s.ppu.Quiet) : step s = .next (s.drained 1) := by
  have h3 : threeDots s = .next (s.withPpu (ppuTicks s.cart (3 * 1) s.ppu)) := threeDots_withPpu s hq
  rw [step, busClock, h3, andThen_next, cpuClock_owing _ (by rwa [State.withPpu_cpu]), andThen_next]
  rfl

/-- `k` clocks of a machine that owes at least `k` cycles. -/
theorem hostRun_clocks_owing {k : Nat} (h : k ≤ s.cpu.cycles) (hq : s.ppu.Quiet) :
    hostRun (List.replicate k .clock) s = .next (s.drained k) := by
  induction k generalizing s with
  | zero => rw [List.replicate_zero, hostRun, State.drained_zero]
  | succ k ih =>
    have hrest : k ≤ (s.drained 1).cpu.cycles := by rw [State.drained_cycles]; omega
    have hquiet : (s.drained 1).ppu.Quiet := by rw [State.drained_ppu]; exact Ppu.quiet_ticks _ _ hq
    rw [List.replicate_succ, hostRun, hostAct, step_owing (by omega) hq, andThen_next, ih hrest hquiet,
      State.drained_succ]

/-- Settles O6, by induction on the number of clocks. -/
theorem owedCyclesDrainOnePerClock : Obligations.OwedCyclesDrainOnePerClock := by
  unfold Obligations.OwedCyclesDrainOnePerClock
  intro n s hn hout hen
  rw [hostRun_clocks_owing (Nat.le_of_eq hn.symm) ⟨hout, hen⟩, State.drained, hn, Nat.sub_self]
  rfl

end Sys2Proof.Machine
end

section
/-! PROOF. The invariant at reset and over a step, and the outcome of `Bus.reset()`. -/

namespace Sys2Proof.Machine

/-- Settles O40: a step is three dots and a CPU clock, each of which keeps the invariant. -/
theorem stepKeepsTheInvariant : Obligations.StepKeepsTheInvariant := by
  unfold Obligations.StepKeepsTheInvariant
  intro s t h ht
  exact step_ensures_inv h t ht

/-- Settles O39, part by part; every memory of the blank machine is empty. -/
theorem resetStateMeetsTheInvariant : Obligations.ResetStateMeetsTheInvariant := by
  unfold Obligations.ResetStateMeetsTheInvariant
  have hstatus : LiveStatus State.reset.cpu.p := ⟨by decide, by decide⟩
  have hdots : State.reset.ppu.DotsWf := ⟨by decide, by decide, rfl, by decide, by decide⟩
  exact State.inv_iff.mpr ⟨hstatus, hdots, Nat.le_refl 1, rfl, hstatus, State.reset_memWf⟩

/-- Settles O37: the reset vector lies in PRG, so loading PC from it cannot fail and has no side effect. -/
theorem resetSetsTheCpuAndTheBusCounters : Obligations.ResetSetsTheCpuAndTheBusCounters := by
  unfold Obligations.ResetSetsTheCpuAndTheBusCounters
  intro s
  have hpc : vectorWord 0xFFFC s = mkWord (readByte 0xFFFD s) (readByte 0xFFFC s) := rfl
  rw [busReset_eq, hpc]

end Sys2Proof.Machine
end

section
/-! PROOF. Which bits of the status register an instruction may write (R24, R25, R26): the table of writers, what each
flag setter writes, what each shape of instruction adds to its effect, and the frame over all instructions. -/

namespace Sys2Proof.Machine

/-! ## The writers of each bit -/

/-- The mnemonics that write bit `k` of the live status register: the table of R26, and for `B` and `U` the
instructions that load both (PLP, RTI) or clear `B` (BRK) (R24, R25). -/
def statusWriters : Nat → List Mnemonic
  | 0 => [.ADC, .SBC, .CMP, .CPX, .CPY, .ASL, .LSR, .ROL, .ROR, .SEC, .CLC, .PLP, .RTI]
  | 1 | 7 => [.LDA, .LDX, .LDY, .TAX, .TAY, .TXA, .TYA, .TSX, .PLA, .AND, .ORA, .EOR, .BIT, .ADC, .SBC, .CMP, .CPX,
      .CPY, .INC, .INX, .INY, .DEC, .DEX, .DEY, .ASL, .LSR, .ROL, .ROR, .PLP, .RTI]
  | 2 => [.SEI, .CLI, .PLP, .RTI, .BRK]
  | 3 => [.SED, .CLD, .PLP, .RTI]
  | 4 => [.PLP, .RTI, .BRK]
  | 5 => [.PLP, .RTI]
  | 6 => [.ADC, .SBC, .BIT, .CLV, .PLP, .RTI]
  | _ => []

/-- What an instruction of mnemonic `m` may do to the status register `p`, which becomes `q`: it writes only bits it
is a writer of, never clears `U` and never sets `B`. -/
structure StatusStep (m : Mnemonic) (p q : Byte) : Prop where
  unwritten : ∀ k, m ∉ statusWriters k → q.getLsbD k = p.getLsbD k
  u_kept : p.getLsbD 5 = true → q.getLsbD 5 = true
  b_kept : p.getLsbD 4 = false → q.getLsbD 4 = false

section

variable {m : Mnemonic} {p q : Byte}

theorem StatusStep.refl : StatusStep m p p := ⟨fun _ _ => rfl, id, id⟩

/-- A writer of bit `i` may put any value there, unless the bit is `B` or `U`. -/
theorem StatusStep.putBit {i : Nat} {b : Bool} (hm : m ∈ statusWriters i) (h5 : 5 ≠ i) (h4 : 4 ≠ i)
    (h : StatusStep m p q) : StatusStep m p (putBit q i b) where
  unwritten k hk := by
    have hki : k ≠ i := fun e => hk (e ▸ hm)
    rw [getLsbD_putBit, if_neg (fun e => hki e.1), h.unwritten k hk]
  u_kept hu := by rw [getLsbD_putBit, if_neg (fun e => h5 e.1), h.u_kept hu]
  b_kept hb := by rw [getLsbD_putBit, if_neg (fun e => h4 e.1), h.b_kept hb]

theorem StatusStep.setC (hm : m ∈ statusWriters 0) (b : Bool) (h : StatusStep m p q) : StatusStep m p (setC q b) :=
  h.putBit hm (by decide) (by decide)
theorem StatusStep.setI (hm : m ∈ statusWriters 2) (b : Bool) (h : StatusStep m p q) : StatusStep m p (setI q b) :=
  h.putBit hm (by decide) (by decide)
theorem StatusStep.setD (hm : m ∈ statusWriters 3) (b : Bool) (h : StatusStep m p q) : StatusStep m p (setD q b) :=
  h.putBit hm (by decide) (by decide)
theorem StatusStep.setV (hm : m ∈ statusWriters 6) (b : Bool) (h : StatusStep m p q) : StatusStep m p (setV q b) :=
  h.putBit hm (by decide) (by decide)

/-- The writers of `Z` are those of `N` (R26). -/
theorem StatusStep.setZN {v : Byte} (hm : m ∈ statusWriters 1) (h : StatusStep m p q) : StatusStep m p (setZN q v) :=
  (h.putBit (i := 1) hm (by decide) (by decide)).putBit (i := 7) hm (by decide) (by decide)

theorem StatusStep.setSum {r : Sum8} (hc : m ∈ statusWriters 0) (hv : m ∈ statusWriters 6) (hz : m ∈ statusWriters 1) :
    StatusStep m p (setSum p r) := ((StatusStep.refl.setC hc _).setV hv _).setZN hz

theorem StatusStep.setCompare {x y : Byte} (hc : m ∈ statusWriters 0) (hz : m ∈ statusWriters 1) :
    StatusStep m p (setCompare p x y) := (StatusStep.refl.setC hc _).setZN hz

theorem StatusStep.setShifted {r : Shifted} (hc : m ∈ statusWriters 0) (hz : m ∈ statusWriters 1) :
    StatusStep m p (setShifted p r) := (StatusStep.refl.setC hc _).setZN hz

theorem StatusStep.setBitTest {x y : Byte} (hz : m ∈ statusWriters 1) (hv : m ∈ statusWriters 6) :
    StatusStep m p (setBitTest p x y) :=
  ((StatusStep.refl.putBit (i := 1) hz (by decide) (by decide)).putBit (i := 7) hz (by decide) (by decide)).setV hv _

/-- BRK clears the live `B` (R25). -/
theorem StatusStep.setB_false (hm : m ∈ statusWriters 4) (h : StatusStep m p q) : StatusStep m p (setB q false) where
  unwritten k hk := by
    have h4 : k ≠ 4 := fun e => hk (e ▸ hm)
    rw [getLsbD_setB, if_neg h4, h.unwritten k hk]
  u_kept hu := by rw [getLsbD_setB, if_neg (by decide), h.u_kept hu]
  b_kept _ := by rw [getLsbD_setB, if_pos rfl]

/-- PLP and RTI load every flag, and the constants of `U` and `B` (R213, R223). -/
theorem StatusStep.pulledStatus {v : Byte} (hm : ∀ k < 8, m ∈ statusWriters k) : StatusStep m p (pulledStatus v) where
  unwritten k hk := by
    have h8 : 8 ≤ k := Nat.le_of_not_lt fun e => hk (hm k e)
    rw [BitVec.getLsbD_of_ge _ _ h8, BitVec.getLsbD_of_ge _ _ h8]
  u_kept _ := liveStatus_pulledStatus.1
  b_kept _ := liveStatus_pulledStatus.2

end

/-! ## The shapes of instruction -/

section

variable {s : State} {R : Byte → Byte → Prop}

theorem busRead_ensures_p (a : Word) (s : State) : Ensures (busRead a s) (·.2.cpu.p = s.cpu.p) := by
  intro r hr
  obtain ⟨-, rfl⟩ := busRead_eq_next _ _ hr
  rw [afterRead_cpu]

theorem busWrite_ensures_p (a : Word) (v : Byte) (s : State) : Ensures (busWrite a v s) (·.cpu.p = s.cpu.p) := by
  intro t ht
  obtain ⟨-, rfl⟩ := busWrite_eq_next _ _ _ ht
  rw [afterWrite_cpu]

theorem push_ensures_p (v : Byte) (s : State) : Ensures (push v s) (·.cpu.p = s.cpu.p) := by
  rw [push_eq, ensures_next, pushed_p]

theorem pull_ensures_p (s : State) : Ensures (pull s) (·.2.cpu.p = s.cpu.p) := by
  rw [pull_eq, ensures_next, State.setSp_cpu_p]

theorem readPointer_ensures_p (pl ph : Word) (s : State) : Ensures (readPointer pl ph s) (·.2.cpu.p = s.cpu.p) :=
  ensures_andThen (busRead_ensures_p pl s) fun lo h1 =>
    ensures_andThen (busRead_ensures_p ph lo.2) fun _ h2 => ensures_next.mpr (h2.trans h1)

theorem resolve_ensures_p (o : Operand) (s : State) : Ensures (resolve o s) (·.2.cpu.p = s.cpu.p) := by
  cases o with
  | ind a => exact ensures_andThen (readPointer_ensures_p _ _ s) fun _ h => ensures_next.mpr h
  | _ => rw [resolve_eq _ _ (by simp [Operand.mode]), ensures_next, State.setAdr_cpu_p]

theorem readOperand_ensures_p (o : Operand) (s : State) : Ensures (readOperand o s) (·.2.cpu.p = s.cpu.p) := by
  unfold readOperand
  split
  · exact ensures_next.mpr rfl
  · exact ensures_next.mpr rfl
  · exact busRead_ensures_p _ s

theorem writeOperand_ensures_p (o : Operand) (v : Byte) (s : State) :
    Ensures (writeOperand o v s) (·.cpu.p = s.cpu.p) := by
  unfold writeOperand
  split
  · exact ensures_next.mpr rfl
  · exact busWrite_ensures_p _ v s

/-- The status register after a reading instruction is its effect's, from a CPU with the status of before. -/
theorem readOp_ensures_status {base : Nat} {plus : Bool} {o : Operand} {f : Byte → Cpu → Cpu}
    (hf : ∀ v c, R c.p (f v c).p) : Ensures (readOp base plus o f s) (R s.cpu.p ·.cpu.p) :=
  ensures_andThen (resolve_ensures_p o _) fun r h1 =>
    ensures_andThen (readOperand_ensures_p o r.2) fun m h2 => by
      have hp : m.2.cpu.p = s.cpu.p := h2.trans h1
      exact ensures_next.mpr (hp ▸ hf m.1 m.2.cpu)

theorem storeOp_ensures_p {base : Nat} {o : Operand} {src : Cpu → Byte} :
    Ensures (storeOp base o src s) (·.cpu.p = s.cpu.p) :=
  ensures_andThen (resolve_ensures_p o _) fun r h1 _ ht =>
    (busWrite_ensures_p r.2.cpu.adr (src r.2.cpu) r.2 _ ht).trans h1

theorem modifyOp_ensures_status {base : Nat} {o : Operand} {f : Byte → Byte → Byte × Byte}
    (hf : ∀ v p, R p (f v p).2) : Ensures (modifyOp base o f s) (R s.cpu.p ·.cpu.p) :=
  ensures_andThen (resolve_ensures_p o _) fun r h1 =>
    ensures_andThen (readOperand_ensures_p o r.2) fun m h2 =>
      ensures_andThen (writeOperand_ensures_p o _ m.2) fun t h3 => by
        have hp : t.cpu.p = s.cpu.p := h3.trans (h2.trans h1)
        exact ensures_next.mpr (hp ▸ hf m.1 t.cpu.p)

theorem registerOp_ensures_status {base : Nat} {f : Cpu → Cpu} (hf : ∀ c, R c.p (f c).p) :
    Ensures (registerOp base f s) (R s.cpu.p ·.cpu.p) :=
  ensures_next.mpr (hf (s.setCycles base).cpu)

theorem branchOp_ensures_p {cond : Byte → Bool} {off : Byte} : Ensures (branchOp cond off s) (·.cpu.p = s.cpu.p) := by
  cases hc : cond s.cpu.p with
  | true => exact branchOp_taken _ _ _ hc ▸ ensures_next.mpr rfl
  | false => exact branchOp_untaken _ _ _ hc ▸ ensures_next.mpr rfl

end

/-! ## The instructions that are no shape of their own -/

section

variable {m : Mnemonic} {s : State}

theorem Ensures.mono {α : Type} {r : Res α} {P Q : α → Prop} (h : Ensures r P) (hPQ : ∀ a, P a → Q a) : Ensures r Q :=
  fun a ha => hPQ a (h a ha)

/-- An operation that leaves the status register as it was. -/
theorem ensures_statusStep_of_p {r : Res State} (h : Ensures r (·.cpu.p = s.cpu.p)) :
    Ensures r (StatusStep m s.cpu.p ·.cpu.p) :=
  h.mono fun t (ht : t.cpu.p = s.cpu.p) => ht ▸ .refl

theorem execJmpAbs_ensures_p (a : Word) : Ensures (execJmpAbs a s) (·.cpu.p = s.cpu.p) :=
  ensures_andThen (resolve_ensures_p _ _) fun _ h => ensures_next.mpr h

theorem execJmpInd_ensures_p (a : Word) : Ensures (execJmpInd a s) (·.cpu.p = s.cpu.p) :=
  ensures_andThen (resolve_ensures_p _ _) fun _ h => ensures_next.mpr h

theorem execJsr_ensures_p (a : Word) : Ensures (execJsr a s) (·.cpu.p = s.cpu.p) :=
  ensures_andThen (resolve_ensures_p _ _) fun r h1 =>
    ensures_andThen (push_ensures_p _ r.2) fun s1 h2 =>
      ensures_andThen (push_ensures_p _ s1) fun _ h3 => ensures_next.mpr (h3.trans (h2.trans h1))

theorem execRts_ensures_p : Ensures (execRts s) (·.cpu.p = s.cpu.p) :=
  ensures_andThen (pull_ensures_p _) fun lo h1 =>
    ensures_andThen (pull_ensures_p lo.2) fun _ h2 => ensures_next.mpr (h2.trans h1)

theorem execPla_ensures_statusStep : Ensures (execPla s) (StatusStep .PLA s.cpu.p ·.cpu.p) :=
  ensures_andThen (pull_ensures_p _) fun r h => by
    rw [ensures_next, State.mapCpu_cpu, h]
    exact StatusStep.refl.setZN (by decide)

theorem execPlp_ensures_statusStep : Ensures (execPlp s) (StatusStep .PLP s.cpu.p ·.cpu.p) :=
  ensures_andThen (pull_ensures_p _) fun _ _ => ensures_next.mpr (StatusStep.pulledStatus (by decide))

theorem execRti_ensures_statusStep : Ensures (execRti s) (StatusStep .RTI s.cpu.p ·.cpu.p) := by
  rw [execRti, returnFromException_eq, ensures_next]
  exact StatusStep.pulledStatus (by decide)

theorem entered_p (status : Byte) (vec : Word) (s : State) : (entered status vec s).cpu.p = setI s.cpu.p true := rfl

/-- BRK sets `I` and clears the live `B` (R222). -/
theorem execBrk_ensures_statusStep : Ensures (execBrk s) (StatusStep .BRK s.cpu.p ·.cpu.p) := by
  rw [execBrk, takeException_eq _ _ _ (by decide) (by decide), andThen_next, ensures_next, State.setP_cpu_p, entered_p]
  exact (StatusStep.refl.setI (by decide) true).setB_false (by decide)

end

/-! ## Every instruction -/

/-- An instruction is one of the shapes, with an effect that writes only flags the table gives its mnemonic, or one of
those treated above. -/
theorem exec_ensures_statusStep (i : Instr) (s : State) :
    Ensures (exec i s) (StatusStep i.mnemonic s.cpu.p ·.cpu.p) := by
  unfold exec
  cases i with
  | ldaIzx | ldaZp0 | ldaImm | ldaAbs | ldaIzy | ldaZpx | ldaAby | ldaAbx =>
    exact readOp_ensures_status (R := StatusStep .LDA) fun _ _ => StatusStep.refl.setZN (by decide)
  | ldxImm | ldxZp0 | ldxAbs | ldxZpy | ldxAby =>
    exact readOp_ensures_status (R := StatusStep .LDX) fun _ _ => StatusStep.refl.setZN (by decide)
  | ldyImm | ldyZp0 | ldyAbs | ldyZpx | ldyAbx =>
    exact readOp_ensures_status (R := StatusStep .LDY) fun _ _ => StatusStep.refl.setZN (by decide)
  | staIzx | staZp0 | staAbs | staIzy | staZpx | staAby | staAbx | stxZp0 | stxAbs | stxZpy | styZp0 | styAbs | styZpx =>
    exact ensures_statusStep_of_p storeOp_ensures_p
  | tax => exact registerOp_ensures_status (R := StatusStep .TAX) fun _ => StatusStep.refl.setZN (by decide)
  | tay => exact registerOp_ensures_status (R := StatusStep .TAY) fun _ => StatusStep.refl.setZN (by decide)
  | txa => exact registerOp_ensures_status (R := StatusStep .TXA) fun _ => StatusStep.refl.setZN (by decide)
  | tya => exact registerOp_ensures_status (R := StatusStep .TYA) fun _ => StatusStep.refl.setZN (by decide)
  | tsx => exact registerOp_ensures_status (R := StatusStep .TSX) fun _ => StatusStep.refl.setZN (by decide)
  | txs => exact registerOp_ensures_status (R := StatusStep .TXS) fun _ => StatusStep.refl
  | adcIzx | adcZp0 | adcImm | adcAbs | adcIzy | adcZpx | adcAby | adcAbx =>
    exact readOp_ensures_status (R := StatusStep .ADC) fun _ _ => .setSum (by decide) (by decide) (by decide)
  | sbcIzx | sbcZp0 | sbcImm | sbcAbs | sbcIzy | sbcZpx | sbcAby | sbcAbx =>
    exact readOp_ensures_status (R := StatusStep .SBC) fun _ _ => .setSum (by decide) (by decide) (by decide)
  | cmpIzx | cmpZp0 | cmpImm | cmpAbs | cmpIzy | cmpZpx | cmpAby | cmpAbx =>
    exact readOp_ensures_status (R := StatusStep .CMP) fun _ _ => .setCompare (by decide) (by decide)
  | cpxImm | cpxZp0 | cpxAbs =>
    exact readOp_ensures_status (R := StatusStep .CPX) fun _ _ => .setCompare (by decide) (by decide)
  | cpyImm | cpyZp0 | cpyAbs =>
    exact readOp_ensures_status (R := StatusStep .CPY) fun _ _ => .setCompare (by decide) (by decide)
  | incZp0 | incAbs | incZpx | incAbx =>
    exact modifyOp_ensures_status (R := StatusStep .INC) fun _ _ => StatusStep.refl.setZN (by decide)
  | decZp0 | decAbs | decZpx | decAbx =>
    exact modifyOp_ensures_status (R := StatusStep .DEC) fun _ _ => StatusStep.refl.setZN (by decide)
  | inx => exact registerOp_ensures_status (R := StatusStep .INX) fun _ => StatusStep.refl.setZN (by decide)
  | iny => exact registerOp_ensures_status (R := StatusStep .INY) fun _ => StatusStep.refl.setZN (by decide)
  | dex => exact registerOp_ensures_status (R := StatusStep .DEX) fun _ => StatusStep.refl.setZN (by decide)
  | dey => exact registerOp_ensures_status (R := StatusStep .DEY) fun _ => StatusStep.refl.setZN (by decide)
  | andIzx | andZp0 | andImm | andAbs | andIzy | andZpx | andAby | andAbx =>
    exact readOp_ensures_status (R := StatusStep .AND) fun _ _ => StatusStep.refl.setZN (by decide)
  | oraIzx | oraZp0 | oraImm | oraAbs | oraIzy | oraZpx | oraAby | oraAbx =>
    exact readOp_ensures_status (R := StatusStep .ORA) fun _ _ => StatusStep.refl.setZN (by decide)
  | eorIzx | eorZp0 | eorImm | eorAbs | eorIzy | eorZpx | eorAby | eorAbx =>
    exact readOp_ensures_status (R := StatusStep .EOR) fun _ _ => StatusStep.refl.setZN (by decide)
  | bitZp0 | bitAbs => exact readOp_ensures_status (R := StatusStep .BIT) fun _ _ => .setBitTest (by decide) (by decide)
  | aslZp0 | aslAcc | aslAbs | aslZpx | aslAbx =>
    exact modifyOp_ensures_status (R := StatusStep .ASL) fun _ _ => .setShifted (by decide) (by decide)
  | lsrZp0 | lsrAcc | lsrAbs | lsrZpx | lsrAbx =>
    exact modifyOp_ensures_status (R := StatusStep .LSR) fun _ _ => .setShifted (by decide) (by decide)
  | rolZp0 | rolAcc | rolAbs | rolZpx | rolAbx =>
    exact modifyOp_ensures_status (R := StatusStep .ROL) fun _ _ => .setShifted (by decide) (by decide)
  | rorZp0 | rorAcc | rorAbs | rorZpx | rorAbx =>
    exact modifyOp_ensures_status (R := StatusStep .ROR) fun _ _ => .setShifted (by decide) (by decide)
  | jmpAbs a => exact ensures_statusStep_of_p (execJmpAbs_ensures_p a)
  | jmpInd a => exact ensures_statusStep_of_p (execJmpInd_ensures_p a)
  | jsr a => exact ensures_statusStep_of_p (execJsr_ensures_p a)
  | rts => exact ensures_statusStep_of_p execRts_ensures_p
  | bcc | bcs | beq | bne | bmi | bpl | bvc | bvs => exact ensures_statusStep_of_p branchOp_ensures_p
  | pha | php => exact ensures_statusStep_of_p (push_ensures_p _ (s.setCycles 3))
  | pla => exact execPla_ensures_statusStep
  | plp => exact execPlp_ensures_statusStep
  | clc => exact registerOp_ensures_status (R := StatusStep .CLC) fun _ => .setC (by decide) false .refl
  | sec => exact registerOp_ensures_status (R := StatusStep .SEC) fun _ => .setC (by decide) true .refl
  | cli => exact registerOp_ensures_status (R := StatusStep .CLI) fun _ => .setI (by decide) false .refl
  | sei => exact registerOp_ensures_status (R := StatusStep .SEI) fun _ => .setI (by decide) true .refl
  | cld => exact registerOp_ensures_status (R := StatusStep .CLD) fun _ => .setD (by decide) false .refl
  | sed => exact registerOp_ensures_status (R := StatusStep .SED) fun _ => .setD (by decide) true .refl
  | clv => exact registerOp_ensures_status (R := StatusStep .CLV) fun _ => .setV (by decide) false .refl
  | nop => exact registerOp_ensures_status (R := StatusStep .NOP) fun _ => StatusStep.refl
  | brk => exact execBrk_ensures_statusStep
  | rti => exact execRti_ensures_statusStep

/-- `SetZN` bit by bit, with both flags as numbers (R26). -/
theorem getLsbD_setZN_toNat (p v : Byte) (k : Nat) :
    (setZN p v).getLsbD k =
      if k = 1 then decide (v.toNat = 0) else if k = 7 then decide (128 ≤ v.toNat) else p.getLsbD k := by
  have hz : (v == 0) = decide (v.toNat = 0) := by
    rw [Bool.eq_iff_iff, beq_iff_eq, decide_eq_true_eq, ← BitVec.toNat_inj]
    rfl
  rw [getLsbD_setZN, bit7_eq, hz]
  by_cases h1 : k = 1
  · subst h1
    rfl
  · simp [h1]

/-- Settles O29: each flag's list of writers is the table's row for its bit. -/
theorem flagsChangeOnlyByTheirWriters : Obligations.FlagsChangeOnlyByTheirWriters := by
  unfold Obligations.FlagsChangeOnlyByTheirWriters
  intro i s t ht
  have h := exec_ensures_statusStep i s t ht
  exact ⟨h.unwritten 0, fun hi => ⟨h.unwritten 1 hi, h.unwritten 7 hi⟩, h.unwritten 2, h.unwritten 3, h.unwritten 6,
    h.u_kept, h.b_kept, fun p v k _ => getLsbD_setZN_toNat p v k⟩

end Sys2Proof.Machine
end

section
/-! PROOF. The stack as a list of bytes (R68): what any number of pushes leaves alone, and what any number of pulls
gives back. -/

namespace Sys2Proof.Machine

variable {s : State}

/-! ## Pushes in a row -/

/-- The machine after the bytes of a list are pushed, the first one first (R68). -/
def pushedAll (vs : List Byte) (s : State) : State := vs.foldl (fun t v => pushed v t) s

theorem pushAll_eq (vs : List Byte) (s : State) : pushAll vs s = .next (pushedAll vs s) := by
  induction vs generalizing s with
  | nil => rfl
  | cons v vs ih =>
    rw [pushAll, push_eq, andThen_next, ih]
    rfl

/-- Pushing the last byte of a list comes after all the others. -/
theorem pushedAll_concat (vs : List Byte) (v : Byte) (s : State) :
    pushedAll (vs ++ [v]) s = pushed v (pushedAll vs s) := by
  rw [pushedAll, List.foldl_append]
  rfl

theorem State.setSp_cpu (v : Byte) (s : State) : (s.setSp v).cpu = { s.cpu with sp := v } := rfl

theorem pushed_cpu (v : Byte) (s : State) : (pushed v s).cpu = { s.cpu with sp := s.cpu.sp - 1 } := rfl

/-- Pushes change no register but SP, which goes down by one a byte and wraps. -/
theorem pushedAll_cpu (vs : List Byte) (s : State) :
    (pushedAll vs s).cpu = { s.cpu with sp := s.cpu.sp - BitVec.ofNat 8 vs.length } := by
  induction vs using List.reverseRecOn with
  | nil => simp [pushedAll]
  | append_singleton vs v ih =>
    have hsp : (pushedAll vs s).cpu.sp - 1 = s.cpu.sp - BitVec.ofNat 8 (vs ++ [v]).length := by
      rw [ih, List.length_append, List.length_singleton, BitVec.ofNat_add]
      exact BitVec.sub_sub _ _ _
    rw [pushedAll_concat, pushed_cpu, hsp, ih]

/-- Pushes change nothing outside the CPU but CPU RAM. -/
theorem pushedAll_frame (vs : List Byte) (s : State) :
    pushedAll vs s =
      (s.mapBus fun b => { b with ram := (pushedAll vs s).bus.ram }).mapCpu fun _ => (pushedAll vs s).cpu := by
  induction vs using List.reverseRecOn with
  | nil => rfl
  | append_singleton vs v ih => rw [pushedAll_concat, ih]; rfl

/-- Pushes leave every byte of CPU RAM alone but those SP points to on the way. -/
theorem pushedAll_ram_other {j : Nat} {vs : List Byte}
    (h : ∀ k < vs.length, j ≠ 256 + (s.cpu.sp - BitVec.ofNat 8 k).toNat) :
    (pushedAll vs s).bus.ram.read j = s.bus.ram.read j := by
  induction vs using List.reverseRecOn with
  | nil => rfl
  | append_singleton vs v ih =>
    rw [List.length_append, List.length_singleton] at h
    have hj : j ≠ 256 + (pushedAll vs s).cpu.sp.toNat := by
      rw [pushedAll_cpu]
      exact h vs.length (Nat.lt_succ_self _)
    rw [pushedAll_concat, pushed_ram, Mem.read_write_other _ _ hj]
    exact ih fun k hk => h k (Nat.lt_succ_of_lt hk)

/-! ## Pulls in a row -/

theorem add_one_add_ofNat (b : Byte) (k : Nat) : b + 1 + BitVec.ofNat 8 k = b + BitVec.ofNat 8 (k + 1) := by
  bv_omega

/-- A pull gives the byte above SP and changes no part of the machine but SP (R68). -/
theorem pull_eq_stackByte (s : State) : pull s = .next (stackByte 0 s, s.setSp (s.cpu.sp + 1)) := by
  rw [pull_eq, stackByte, BitVec.ofNat_eq_ofNat, BitVec.add_zero]

/-- A pull moves the stack's bytes up by one. -/
theorem stackByte_setSp_succ (k : Nat) (s : State) : stackByte k (s.setSp (s.cpu.sp + 1)) = stackByte (k + 1) s := by
  simp only [stackByte, State.setSp_cpu_sp, State.setSp_bus, add_one_add_ofNat (s.cpu.sp + 1)]

/-- Any number of pulls gives the bytes above SP in order. -/
theorem pullAll_eq (n : Nat) (s : State) :
    pullAll n s =
      .next ((List.range n).map (stackByte · s), s.setSp (s.cpu.sp + BitVec.ofNat 8 n)) := by
  induction n generalizing s with
  | zero => simp [pullAll]
  | succ n ih =>
    rw [pullAll, pull_eq_stackByte, andThen_next, ih, andThen_next, State.setSp_setSp, State.setSp_cpu_sp,
      add_one_add_ofNat, List.range_succ_eq_map, List.map_cons, List.map_map,
      List.map_congr_left fun k _ => stackByte_setSp_succ k s]
    rfl

/-- The byte pushed last is the one a pull gives. -/
theorem stackByte_zero_pushed (v : Byte) (s : State) : stackByte 0 (pushed v s) = v := by
  have hsp : s.cpu.sp - 1 + 1 + BitVec.ofNat 8 0 = s.cpu.sp := by bv_omega
  rw [stackByte, pushed_sp, hsp, pushed_ram, Mem.read_write_same]

/-- Below the byte pushed last the stack is as before, 255 bytes deep. -/
theorem stackByte_succ_pushed {k : Nat} (v : Byte) (s : State) (hk : k < 255) :
    stackByte (k + 1) (pushed v s) = stackByte k s := by
  have hsp : s.cpu.sp - 1 + 1 + BitVec.ofNat 8 (k + 1) = s.cpu.sp + 1 + BitVec.ofNat 8 k := by bv_omega
  have hne : 256 + (s.cpu.sp + 1 + BitVec.ofNat 8 k).toNat ≠ 256 + s.cpu.sp.toNat := by bv_omega
  rw [stackByte, pushed_sp, hsp, pushed_ram, Mem.read_write_other _ _ hne, stackByte]

/-- At most 256 bytes come back in reverse order. -/
theorem stackBytes_pushedAll {vs : List Byte} (s : State) (h : vs.length ≤ 256) :
    (List.range vs.length).map (stackByte · (pushedAll vs s)) = vs.reverse := by
  induction vs using List.reverseRecOn with
  | nil => rfl
  | append_singleton vs v ih =>
    rw [List.length_append, List.length_singleton] at h
    have hrest : ∀ k ∈ List.range vs.length,
        stackByte (k + 1) (pushed v (pushedAll vs s)) = stackByte k (pushedAll vs s) := fun k hk => by
      have hk := List.mem_range.mp hk
      exact stackByte_succ_pushed v _ (by omega)
    rw [pushedAll_concat, List.length_append, List.length_singleton, List.range_succ_eq_map, List.map_cons,
      List.map_map, stackByte_zero_pushed, List.reverse_append, ← ih (by omega), ← List.map_congr_left hrest]
    rfl

/-- Settles O30: pulls after pushes read the pushed bytes back, since at most 256 of them lie at different addresses. -/
theorem stackIsLastInFirstOut : Obligations.StackIsLastInFirstOut := by
  unfold Obligations.StackIsLastInFirstOut
  refine ⟨fun v s => ⟨push_eq s v, rfl⟩, pull_eq, fun vs s => ⟨_, pushAll_eq vs s, ?_, fun h => ?_⟩⟩
  · rw [pushedAll_cpu]
  · refine ⟨_, (pullAll_eq _ _).trans (by rw [stackBytes_pushedAll s h]), ?_⟩
    rw [State.setSp_cpu, pushedAll_cpu, BitVec.sub_add_cancel]

end Sys2Proof.Machine
end

section
/-! PROOF. The frame of the forms that push and pull (R191, R192, R210 to R213, R222, R223): each of them pushes a list
of bytes and then changes registers. -/

namespace Sys2Proof.Machine

variable {s : State} {a : Word}

/-! ## What is read after pushes -/

/-- Different bytes of storage have different indices in CPU RAM (R233). -/
theorem ramIndex_ne_of_sameByte {b : Word} (h : sameByte a b = false) (ha : a.toNat ≤ 0x1FFF) (hb : b.toNat ≤ 0x1FFF) :
    a.toNat % 0x800 ≠ b.toNat % 0x800 := by
  simp only [sameByte, Bool.or_eq_false_iff, Bool.and_eq_false_iff, decide_eq_false_iff_not] at h
  tauto

/-- A read outside CPU RAM, of a device too, does not depend on what CPU RAM holds. -/
theorem readByte_withRam (m : Mem 8) (h : 0x1FFF < a.toNat) :
    readByte a (s.mapBus fun b => { b with ram := m }) = readByte a s := by
  have h1 : ¬ a.toNat ≤ 0x1FFF := Nat.not_le_of_lt h
  have hctrl : (ctrlRead { s.bus with ram := m }).1 = (ctrlRead s.bus).1 := by
    unfold ctrlRead
    cases s.bus.ctrlStrobe <;> rfl
  unfold readByte busRead
  rw [State.mapBus_params, State.mapBus_cart]
  cases mapCpuRead s.params s.cart a with
  | offset off => rfl
  | fault => rfl
  | none =>
    simp only [State.mapBus, h1, if_false, hctrl]
    split_ifs <;> rfl

/-- Pushes leave every address alone but those of the bytes pushed, devices included (R68). -/
theorem readByte_pushedAll {vs : List Byte}
    (h : ∀ k < vs.length, sameByte a (stackAddr (s.cpu.sp - BitVec.ofNat 8 k)) = false) :
    readByte a (pushedAll vs s) = readByte a s := by
  by_cases ha : a.toNat ≤ 0x1FFF
  · rw [readByte_ram _ _ ha, readByte_ram _ _ ha]
    refine pushedAll_ram_other fun k hk => ?_
    have hp : (stackAddr (s.cpu.sp - BitVec.ofNat 8 k)).toNat ≤ 0x1FFF := by
      rw [toNat_stackAddr]
      omega
    rw [← stackAddr_index]
    exact ramIndex_ne_of_sameByte (h k hk) ha hp
  · rw [pushedAll_frame, readByte_mapCpu, readByte_withRam _ (Nat.lt_of_not_le ha)]

/-! ## The outcome of each form -/

theorem exec_pha (s : State) : exec .pha s = .next ((pushedAll [s.cpu.a] s).mapCpu fun c => { c with cycles := 3 }) :=
  push_eq _ _

theorem exec_php (s : State) :
    exec .php s = .next ((pushedAll [pushedByInstruction s.cpu.p] s).mapCpu fun c => { c with cycles := 3 }) :=
  push_eq _ _

theorem exec_pla (s : State) :
    exec .pla s = .next (s.mapCpu fun c =>
      { c with sp := c.sp + 1, a := stackByte 0 s, p := setZN c.p (stackByte 0 s), cycles := 4 }) := by
  rw [exec, execPla, pull_eq_stackByte]
  rfl

theorem exec_plp (s : State) :
    exec .plp s = .next (s.mapCpu fun c =>
      { c with sp := c.sp + 1, p := pulledStatus (stackByte 0 s), cycles := 4 }) := by
  rw [exec, execPlp, pull_eq_stackByte]
  rfl

theorem exec_jsr (w : Word) (s : State) :
    exec (.jsr w) s = .next ((pushedAll [hiByte (s.cpu.pc - 1), loByte (s.cpu.pc - 1)] s).mapCpu fun c =>
      { c with pc := w, adr := w, cycles := 6 }) := by
  rw [exec, execJsr, resolve, andThen_next]
  dsimp only
  rw [push_eq, andThen_next, push_eq]
  rfl

theorem exec_rts (s : State) :
    exec .rts s = .next (s.mapCpu fun c =>
      { c with sp := c.sp + 2, pc := mkWord (stackByte 1 s) (stackByte 0 s) + 1, cycles := 6 }) := by
  have hsp : s.cpu.sp + 1 + 1 = s.cpu.sp + 2 := add_one_add_ofNat s.cpu.sp 1
  have hhigh : stackByte 0 (s.setSp (s.cpu.sp + 1)) = stackByte 1 s := stackByte_setSp_succ 0 s
  rw [exec, execRts, pull_eq_stackByte, andThen_next, pull_eq_stackByte, ← hhigh, State.mapCpu, ← hsp]
  rfl

/-- BRK's handler address is read after the pushes, but from PRG. -/
theorem exec_brk (s : State) :
    exec .brk s =
      .next ((pushedAll [hiByte (s.cpu.pc + 1), loByte (s.cpu.pc + 1), pushedByInstruction s.cpu.p] s).mapCpu fun c =>
        { c with p := setB (setI c.p true) false, pc := vectorWord vectorIrq s, cycles := 7 }) := by
  have hvec : vectorWord vectorIrq ((s.setCycles 7).setPc (s.cpu.pc + 1)) = vectorWord vectorIrq s := by
    simp only [vectorWord, readByte_setPc, readByte_setCycles]
  rw [exec, execBrk, takeException_eq _ _ _ (by decide) (by decide), ← hvec]
  rfl

theorem exec_rti (s : State) :
    exec .rti s = .next (s.mapCpu fun c =>
      { c with
        sp := c.sp + 3
        p := pulledStatus (stackByte 0 s)
        pc := mkWord (stackByte 2 s) (stackByte 1 s)
        cycles := 6 }) := returnFromException_eq (s.setCycles 6)

/-! ## What the forms have in common -/

/-- What a stack form does to the registers when its bytes are pushed: SP goes up by the bytes pulled. -/
structure StackRegs (i : Instr) (pulls : Nat) (c c' : Cpu) : Prop where
  sp : c'.sp = c.sp + BitVec.ofNat 8 pulls
  x : c'.x = c.x
  y : c'.y = c.y
  a : i ≠ .pla → c'.a = c.a
  p : i.mnemonic ∉ [.PLA, .PLP, .BRK, .RTI] → c'.p = c.p
  pc : i.mnemonic ∈ [.PHA, .PHP, .PLA, .PLP] → c'.pc = c.pc

/-- A stack form completes by pushing a number of bytes and changing registers, SP by the bytes it pulls. -/
def IsStackForm (i : Instr) (pushes pulls : Nat) (s : State) : Prop :=
  ∃ (vs : List Byte) (f : Cpu → Cpu), exec i s = .next ((pushedAll vs s).mapCpu f) ∧ vs.length = pushes ∧
    ∀ c, StackRegs i pulls c (f c)

theorem isStackForm_pha (s : State) : IsStackForm .pha 1 0 s :=
  ⟨_, _, exec_pha s, rfl, fun c =>
    ⟨(BitVec.add_zero c.sp).symm, rfl, rfl, fun _ => rfl, fun _ => rfl, fun _ => rfl⟩⟩

theorem isStackForm_php (s : State) : IsStackForm .php 1 0 s :=
  ⟨_, _, exec_php s, rfl, fun c =>
    ⟨(BitVec.add_zero c.sp).symm, rfl, rfl, fun _ => rfl, fun _ => rfl, fun _ => rfl⟩⟩

theorem isStackForm_pla (s : State) : IsStackForm .pla 0 1 s :=
  ⟨[], _, exec_pla s, rfl, fun _ =>
    ⟨rfl, rfl, rfl, fun h => absurd rfl h, fun h => absurd (by decide) h, fun _ => rfl⟩⟩

theorem isStackForm_plp (s : State) : IsStackForm .plp 0 1 s :=
  ⟨[], _, exec_plp s, rfl, fun _ =>
    ⟨rfl, rfl, rfl, fun _ => rfl, fun h => absurd (by decide) h, fun _ => rfl⟩⟩

theorem isStackForm_jsr (w : Word) (s : State) : IsStackForm (.jsr w) 2 0 s :=
  ⟨_, _, exec_jsr w s, rfl, fun c =>
    ⟨(BitVec.add_zero c.sp).symm, rfl, rfl, fun _ => rfl, fun _ => rfl, fun h => by
      simp [Instr.mnemonic, Instr.row] at h⟩⟩

theorem isStackForm_rts (s : State) : IsStackForm .rts 0 2 s :=
  ⟨[], _, exec_rts s, rfl, fun _ =>
    ⟨rfl, rfl, rfl, fun _ => rfl, fun _ => rfl, fun h => absurd h (by decide)⟩⟩

theorem isStackForm_brk (s : State) : IsStackForm .brk 3 0 s :=
  ⟨_, _, exec_brk s, rfl, fun c =>
    ⟨(BitVec.add_zero c.sp).symm, rfl, rfl, fun _ => rfl, fun h => absurd (by decide) h,
      fun h => absurd h (by decide)⟩⟩

theorem isStackForm_rti (s : State) : IsStackForm .rti 0 3 s :=
  ⟨[], _, exec_rti s, rfl, fun _ =>
    ⟨rfl, rfl, rfl, fun _ => rfl, fun h => absurd (by decide) h, fun h => absurd h (by decide)⟩⟩

/-- Settles O27: a stack form pushes its bytes, reads RAM and PRG at most, and changes registers. -/
theorem stackFormsChangeOnlyTheirStackBytes : Obligations.StackFormsChangeOnlyTheirStackBytes := by
  unfold Obligations.StackFormsChangeOnlyTheirStackBytes
  intro i s t pushes pulls hi ht
  have hform : IsStackForm i pushes pulls s := by
    simp only [List.mem_cons, Prod.mk.injEq, List.not_mem_nil, or_false] at hi
    rcases hi with (⟨rfl, rfl, rfl⟩ | ⟨rfl, rfl, rfl⟩ | ⟨rfl, rfl, rfl⟩ | ⟨rfl, rfl, rfl⟩ | ⟨rfl, rfl, rfl⟩ |
      ⟨rfl, rfl, rfl⟩ | ⟨rfl, rfl, rfl⟩) | ⟨⟨w, rfl⟩, rfl, rfl⟩
    · exact isStackForm_pha s
    · exact isStackForm_php s
    · exact isStackForm_pla s
    · exact isStackForm_plp s
    · exact isStackForm_rts s
    · exact isStackForm_brk s
    · exact isStackForm_rti s
    · exact isStackForm_jsr w s
  obtain ⟨vs, f, hexec, rfl, hregs⟩ := hform
  obtain rfl : (pushedAll vs s).mapCpu f = t := by rwa [hexec, Host.Outcome.next.injEq] at ht
  have hr := hregs (pushedAll vs s).cpu
  rw [pushedAll_cpu] at hr
  rw [State.mapCpu_cpu, pushedAll_cpu]
  refine ⟨hr.sp, fun a h => ?_, ?_, ?_, ?_, ?_, hr.x, hr.y, hr.a, hr.p, hr.pc⟩
  · rw [readByte_mapCpu, readByte_pushedAll h]
  all_goals
    rw [pushedAll_frame]
    rfl

end Sys2Proof.Machine
end

section
/-! PROOF. The frame of the forms that read a value (R65, R131 to R133, R151 to R155, R170 to R173): what a bus read
leaves alone, and the destination of each form. -/

namespace Sys2Proof.Machine

variable {s t : State} {o : Operand} {i : Instr}

/-! ## What a read leaves alone -/

/-- The two states agree in the CPU, the cartridge, the parameters and every memory; the registers of the devices may
differ. -/
structure SameStorage (s u : State) : Prop where
  cpu : u.cpu = s.cpu
  cart : u.cart = s.cart
  params : u.params = s.params
  ram : u.bus.ram = s.bus.ram
  cartRam : u.bus.cartRam = s.bus.cartRam
  oam : u.ppu.oam = s.ppu.oam
  nt : u.ppu.nt = s.ppu.nt
  pal : u.ppu.pal = s.ppu.pal
  framebuffer : u.ppu.framebuffer = s.ppu.framebuffer

theorem sameStorage_refl (s : State) : SameStorage s s := ⟨rfl, rfl, rfl, rfl, rfl, rfl, rfl, rfl, rfl⟩

/-- A read of a device changes registers of the device only (R65). -/
theorem sameStorage_afterRead (a : Word) (s : State) : SameStorage s (afterRead a s) :=
  ⟨afterRead_cpu a s, afterRead_cart a s, afterRead_params a s, afterRead_ram_field a s, afterRead_cartRam a s,
    afterRead_oam a s, afterRead_nt a s, afterRead_pal a s, afterRead_framebuffer a s⟩

theorem SameStorage.readByte_eq {u : State} {a : Word} (h : SameStorage s u) (ha : IsDevice a = false) :
    readByte a u = readByte a s := readByte_congr a ha h.ram h.cartRam h.cart h.params

@[simp] theorem readByte_addCycles (a : Word) (n : Nat) (s : State) : readByte a (s.addCycles n) = readByte a s :=
  readByte_mapCpu a s _

/-! ## The outcome of a reading form -/

/-- Reading an operand reads its address at most; an immediate operand and one that is no device have no side effect. -/
theorem readOperand_eq_next {r : Byte × State} (ho : ReadsByte o)
    (h : readOperand o (s.setAdr (effAddr o s)) = .next r) :
    ∃ u, r.2 = u.setAdr (effAddr o s) ∧ SameStorage s u ∧
      (o.mode = .imm ∨ IsDevice (effAddr o s) = false → u = s) := by
  rcases ho.cases with ⟨b, rfl⟩ | hm
  · rw [readOperand, Host.Outcome.next.injEq] at h
    exact ⟨s, h ▸ rfl, sameStorage_refl s, fun _ => rfl⟩
  · rw [hm.readOperand] at h
    obtain ⟨-, rfl⟩ := busRead_eq_next _ _ h
    refine ⟨_, afterRead_setAdr _ s _, sameStorage_afterRead _ s, fun h => ?_⟩
    have hmode : o.mode ≠ .imm := fun h => by cases o <;> simp [InMemory, inMemory, Operand.mode] at hm h
    exact afterRead_plain _ s (h.resolve_left hmode)

/-- A reading form that completes is its operand's read, then its effect, then its extra cycle. -/
theorem readOp_eq_next {base : Nat} {plus : Bool} {f : Byte → Cpu → Cpu} (ho : ReadsByte o)
    (h : readOp base plus o f s = .next t) :
    ∃ u v n, t = ((u.setAdr (effAddr o s)).mapCpu (f v)).addCycles n ∧ SameStorage (s.setCycles base) u ∧
      (o.mode = .imm ∨ IsDevice (effAddr o s) = false → u = s.setCycles base) := by
  rw [readOp, resolve_eq _ _ ho.mode_ne_ind, andThen_next] at h
  obtain ⟨r, hr, h⟩ := andThen_eq_next.mp h
  obtain ⟨u, hu, hs, hplain⟩ := readOperand_eq_next ho hr
  rw [effAddr_setCycles] at hu hplain
  rw [hu, Host.Outcome.next.injEq] at h
  exact ⟨u, _, _, h.symm, hs, hplain⟩

/-- The mnemonics that read a value and store nothing. -/
def readingMnemonics : List Mnemonic := [.LDA, .LDX, .LDY, .ADC, .SBC, .CMP, .CPX, .CPY, .AND, .ORA, .EOR, .BIT]

/-- What a reading form may do to the registers: of A, X and Y it changes its destination, and neither PC nor SP. -/
structure ReadRegs (m : Mnemonic) (c c' : Cpu) : Prop where
  pc : c'.pc = c.pc
  sp : c'.sp = c.sp
  a : m ∉ [.LDA, .ADC, .SBC, .AND, .ORA, .EOR] → c'.a = c.a
  x : m ≠ .LDX → c'.x = c.x
  y : m ≠ .LDY → c'.y = c.y

section

variable {m : Mnemonic} {c : Cpu} {v p : Byte}

theorem ReadRegs.toA (hm : m ∈ [.LDA, .ADC, .SBC, .AND, .ORA, .EOR]) : ReadRegs m c { c with a := v, p := p } :=
  ⟨rfl, rfl, fun h => absurd hm h, fun _ => rfl, fun _ => rfl⟩

theorem ReadRegs.toX : ReadRegs .LDX c { c with x := v, p := p } :=
  ⟨rfl, rfl, fun _ => rfl, fun h => absurd rfl h, fun _ => rfl⟩

theorem ReadRegs.toY : ReadRegs .LDY c { c with y := v, p := p } :=
  ⟨rfl, rfl, fun _ => rfl, fun _ => rfl, fun h => absurd rfl h⟩

theorem ReadRegs.toP : ReadRegs m c { c with p := p } := ⟨rfl, rfl, fun _ => rfl, fun _ => rfl, fun _ => rfl⟩

end

/-- The instruction is a reading form whose effect keeps to its mnemonic's destination. -/
def IsReadingForm (i : Instr) : Prop :=
  ∃ base plus f, exec i = readOp base plus i.operand f ∧ ReadsByte i.operand ∧ ∀ v c, ReadRegs i.mnemonic c (f v c)

/-- The operand's mode says that it is a byte of memory or an immediate one, whatever its bytes are. -/
theorem isReadingForm_of_readOp (m : Mnemonic) {base : Nat} {plus : Bool} {f : Byte → Cpu → Cpu}
    (hexec : exec i = readOp base plus i.operand f) (hm : i.mnemonic = m)
    (ho : (decide (i.operand.mode = .imm) || inMemory i.operand) = true) (hf : ∀ v c, ReadRegs m c (f v c)) :
    IsReadingForm i := by
  refine ⟨base, plus, f, hexec, ?_, hm ▸ hf⟩
  simpa [ReadsByte, InMemory] using ho

/-- Every form with one of the mnemonics is a reading form: the rows of R131 to R133, R151 to R155, R170 to R173. -/
theorem isReadingForm_of_mnemonic (hi : i.mnemonic ∈ readingMnemonics) : IsReadingForm i := by
  cases i with
  | ldaIzx | ldaZp0 | ldaImm | ldaAbs | ldaIzy | ldaZpx | ldaAby | ldaAbx =>
    exact isReadingForm_of_readOp .LDA rfl rfl rfl fun _ _ => .toA (by decide)
  | ldxImm | ldxZp0 | ldxAbs | ldxZpy | ldxAby =>
    exact isReadingForm_of_readOp .LDX rfl rfl rfl fun _ _ => .toX
  | ldyImm | ldyZp0 | ldyAbs | ldyZpx | ldyAbx =>
    exact isReadingForm_of_readOp .LDY rfl rfl rfl fun _ _ => .toY
  | adcIzx | adcZp0 | adcImm | adcAbs | adcIzy | adcZpx | adcAby | adcAbx =>
    exact isReadingForm_of_readOp .ADC rfl rfl rfl fun _ _ => .toA (by decide)
  | sbcIzx | sbcZp0 | sbcImm | sbcAbs | sbcIzy | sbcZpx | sbcAby | sbcAbx =>
    exact isReadingForm_of_readOp .SBC rfl rfl rfl fun _ _ => .toA (by decide)
  | cmpIzx | cmpZp0 | cmpImm | cmpAbs | cmpIzy | cmpZpx | cmpAby | cmpAbx =>
    exact isReadingForm_of_readOp .CMP rfl rfl rfl fun _ _ => .toP
  | cpxImm | cpxZp0 | cpxAbs =>
    exact isReadingForm_of_readOp .CPX rfl rfl rfl fun _ _ => .toP
  | cpyImm | cpyZp0 | cpyAbs =>
    exact isReadingForm_of_readOp .CPY rfl rfl rfl fun _ _ => .toP
  | andIzx | andZp0 | andImm | andAbs | andIzy | andZpx | andAby | andAbx =>
    exact isReadingForm_of_readOp .AND rfl rfl rfl fun _ _ => .toA (by decide)
  | oraIzx | oraZp0 | oraImm | oraAbs | oraIzy | oraZpx | oraAby | oraAbx =>
    exact isReadingForm_of_readOp .ORA rfl rfl rfl fun _ _ => .toA (by decide)
  | eorIzx | eorZp0 | eorImm | eorAbs | eorIzy | eorZpx | eorAby | eorAbx =>
    exact isReadingForm_of_readOp .EOR rfl rfl rfl fun _ _ => .toA (by decide)
  | bitZp0 | bitAbs =>
    exact isReadingForm_of_readOp .BIT rfl rfl rfl fun _ _ => .toP
  | _ => simp [readingMnemonics, Instr.mnemonic, Instr.row] at hi

/-- Settles O25: a reading form is a bus read followed by a change of its destination and the flags. -/
theorem readingFormsLeaveMemoryAlone : Obligations.ReadingFormsLeaveMemoryAlone := by
  unfold Obligations.ReadingFormsLeaveMemoryAlone
  intro i s t hi ht
  obtain ⟨base, plus, f, hexec, ho, hf⟩ := isReadingForm_of_mnemonic hi
  rw [hexec] at ht
  obtain ⟨u, v, n, rfl, hs, hplain⟩ := readOp_eq_next ho ht
  have hr : ReadRegs i.mnemonic { (s.setCycles base).cpu with adr := effAddr i.operand s }
      (f v (u.setAdr (effAddr i.operand s)).cpu) := by
    rw [← hs.cpu]
    exact hf v _
  refine ⟨fun a ha => ?_, hs.ram, hs.cartRam, hs.cart, hs.params, hs.oam, hs.nt, hs.pal, hs.framebuffer, hr.pc, hr.sp,
    hr.a, hr.x, hr.y, fun h => ?_⟩
  · simpa using hs.readByte_eq ha
  · rw [hplain h]
    exact ⟨rfl, rfl, fun a => by simp⟩

end Sys2Proof.Machine
end

section
/-! PROOF. The frame of the forms that store (R134 to R136, R156, R159, R174 to R178): what a bus write leaves alone
(R232), and which forms are one write, with a read of the same address before it or without. -/

namespace Sys2Proof.Machine

variable {s t u : State} {o : Operand} {i : Instr} {a e : Word}

/-! ## What is read outside the devices, range by range (R231) -/

theorem readByte_unmapped (hd : IsDevice a = false) (h1 : 0x1FFF < a.toNat) (h2 : a.toNat < 0x6000) (s : State) :
    readByte a s = 0 := by
  have ha : ¬ a.toNat ≤ 0x1FFF := Nat.not_le_of_lt h1
  have hc : ¬ (0x6000 ≤ a.toNat ∧ a.toNat ≤ 0x7FFF) := by omega
  simp only [IsDevice, Bool.or_eq_false_iff, Bool.and_eq_false_iff, decide_eq_false_iff_not, beq_eq_false_iff_ne] at hd
  have hp : ¬ a.toNat ≤ 0x3FFF := by omega
  rw [readByte, busRead, mapCpuRead_low _ _ _ h2]
  simp only [ha, hp, hd.2, hc, if_false]

/-- The window of cartridge RAM: with the MMC1 the read faults (R236, R352). -/
theorem readByte_window (h1 : 0x6000 ≤ a.toNat) (h2 : a.toNat < 0x8000) (s : State) :
    readByte a s = if s.cart.mapperId = 0 then s.bus.cartRam.read (a.toNat % 0x2000) else 0 := by
  by_cases hm : s.cart.mapper = .nrom
  · have hmap : mapCpuRead s.params s.cart a = .none := by
      rw [mapCpuRead, hm]
      exact if_pos h2
    have h3 : a ≠ 0x4016 := by
      rintro rfl
      exact absurd h1 (by decide)
    have h4 : ¬ a.toNat ≤ 0x1FFF := by omega
    have h5 : ¬ a.toNat ≤ 0x3FFF := by omega
    have h6 : 0x6000 ≤ a.toNat ∧ a.toNat ≤ 0x7FFF := by omega
    rw [if_pos (mapperId_eq_zero.mpr hm), readByte, busRead, hmap]
    simp only [h3, h4, h5, h6, if_false, and_self, if_true]
  · rw [if_neg (mt mapperId_eq_zero.mp hm)]
    exact readByte_blocked _ _ ((blocked_iff _ _).mpr ⟨hm, h1, h2⟩)

/-- From 0x8000 up a read depends on PRG, the mapper and the parameters only (R336). -/
theorem readByte_prg_congr (h : 0x8000 ≤ a.toNat) (hm : t.cart.mapper = s.cart.mapper)
    (hb : t.cart.prgBanks = s.cart.prgBanks) (hprg : t.cart.prg = s.cart.prg) (hp : t.params = s.params) :
    readByte a t = readByte a s := by
  have hmap : mapCpuRead t.params t.cart a = mapCpuRead s.params s.cart a := by
    unfold mapCpuRead
    rw [hm, hb, hp]
  obtain ⟨off, h1, h2⟩ := busRead_prg a s h
  obtain ⟨off', h1', h2'⟩ := busRead_prg a t h
  rw [hmap, h1, Claim.offset.injEq] at h1'
  subst h1'
  simp only [readByte, h2, h2', Cart.prgIndex, Cart.prgSize, hb, hprg]

/-! ## What a write leaves alone -/

/-- All that a write at `e` may change outside the CPU: a byte of RAM or of cartridge RAM if `e` names one, the mapper's
registers if `e` lies in PRG, and devices if `e` is one. -/
structure WriteFrame (e : Word) (s t : State) : Prop where
  params : t.params = s.params
  prg : t.cart.prg = s.cart.prg
  prgBanks : t.cart.prgBanks = s.cart.prgBanks
  mapperId : t.cart.mapperId = s.cart.mapperId
  mapper : e.toNat < 0x8000 ∨ s.cart.mapper = .nrom → t.cart.mapper = s.cart.mapper
  ram : ∀ j, (e.toNat ≤ 0x1FFF → j ≠ e.toNat % 0x800) → t.bus.ram.read j = s.bus.ram.read j
  cartRam : ∀ j, (0x6000 ≤ e.toNat → e.toNat < 0x8000 → j ≠ e.toNat % 0x2000) →
    t.bus.cartRam.read j = s.bus.cartRam.read j
  ppu : IsDevice e = false → t.ppu = s.ppu
  bus : IsDevice e = false → t.bus = { s.bus with ram := t.bus.ram, cartRam := t.bus.cartRam }
  cart : IsDevice e = false → e.toNat < 0x8000 → t.cart = s.cart

theorem writeFrame_refl (e : Word) (s : State) : WriteFrame e s s :=
  ⟨rfl, rfl, rfl, rfl, fun _ => rfl, fun _ _ => rfl, fun _ _ => rfl, fun _ => rfl, fun _ => rfl, fun _ _ => rfl⟩

/-- A write to a device may change the PPU, the Bus but for its memories, and CHR. -/
theorem writeFrame_of_isDevice (hd : IsDevice e = true) (hparams : t.params = s.params)
    (hcart : t.cart = { s.cart with chr := t.cart.chr }) (hram : t.bus.ram = s.bus.ram)
    (hcartRam : t.bus.cartRam = s.bus.cartRam) : WriteFrame e s t := by
  have hnot {p : Prop} : IsDevice e = false → p := fun h => absurd (hd.symm.trans h) (by decide)
  refine ⟨hparams, ?_, ?_, ?_, fun _ => ?_, fun _ _ => by rw [hram], fun _ _ => by rw [hcartRam], hnot, hnot, hnot⟩
  · rw [hcart]
  · rw [hcart]
  · rw [hcart]
    rfl
  · rw [hcart]

theorem isDevice_ppuRegister (h1 : 0x2000 ≤ a.toNat) (h2 : a.toNat ≤ 0x3FFF) : IsDevice a = true := by
  simp [IsDevice, h1, h2]

theorem ctrlWrite_frame (d : Byte) (b : Bus) :
    ctrlWrite d b = { b with ctrlStrobe := (ctrlWrite d b).ctrlStrobe, ctrlShift := (ctrlWrite d b).ctrlShift } := by
  unfold ctrlWrite
  split <;> rfl

/-- The frame of a bus write, by the address ranges of R232. -/
theorem writeFrame_afterWrite (e : Word) (d : Byte) (s : State) : WriteFrame e s (afterWrite e d s) := by
  unfold afterWrite
  rcases busWrite_cases e s d with ⟨-, h⟩ | ⟨he, h⟩ | ⟨h1, h2, h⟩ | ⟨rfl, h⟩ | ⟨rfl, h⟩ | ⟨h1, h2, -, h⟩ |
    ⟨h1, r, hr, h⟩ | ⟨-, -, -, -, h⟩ <;> rw [h]
  · exact writeFrame_refl e s
  · exact ⟨rfl, rfl, rfl, rfl, fun _ => rfl, fun j hj => Mem.read_write_other _ _ (hj he), fun _ _ => rfl, fun _ => rfl,
      fun _ => rfl, fun _ _ => rfl⟩
  · exact writeFrame_of_isDevice (isDevice_ppuRegister h1 h2) rfl (ppuRegWrite_cart _ _ _ _).1 rfl rfl
  · exact writeFrame_of_isDevice (by decide) rfl rfl rfl rfl
  · refine writeFrame_of_isDevice (by decide) rfl rfl ?_ ?_ <;> rw [State.mapBus_bus, ctrlWrite_frame]
  · exact ⟨rfl, rfl, rfl, rfl, fun _ => rfl, fun _ _ => rfl,
      fun j hj => Mem.read_write_other _ _ (hj h1 (Nat.lt_succ_of_le h2)), fun _ => rfl, fun _ => rfl, fun _ _ => rfl⟩
  · have hnot {p : Prop} : e.toNat < 0x8000 → p := fun h => absurd h1 (Nat.not_le_of_lt h)
    have hmmc {p : Prop} : s.cart.mapper = .nrom → p := fun h => by rw [hr] at h; cases h
    refine ⟨rfl, rfl, rfl, ?_, fun h => h.elim hnot hmmc, fun _ _ => rfl, fun _ _ => rfl, fun _ => rfl, fun _ => rfl,
      fun _ => hnot⟩
    simp only [Cart.mapperId, hr]
  · exact writeFrame_refl e s

/-- The frame does not speak of the CPU. -/
theorem WriteFrame.mapCpu {f : Cpu → Cpu} (h : WriteFrame e (s.mapCpu f) t) (g : Cpu → Cpu) :
    WriteFrame e s (t.mapCpu g) :=
  ⟨h.params, h.prg, h.prgBanks, h.mapperId, h.mapper, h.ram, h.cartRam, h.ppu, h.bus, h.cart⟩

/-- A read of the same address before the write does not matter. -/
theorem WriteFrame.of_sameStorage (h : WriteFrame e u t) (hs : SameStorage s u) (hplain : IsDevice e = false → u = s) :
    WriteFrame e s t where
  params := h.params.trans hs.params
  prg := hs.cart ▸ h.prg
  prgBanks := hs.cart ▸ h.prgBanks
  mapperId := hs.cart ▸ h.mapperId
  mapper := hs.cart ▸ h.mapper
  ram := hs.ram ▸ h.ram
  cartRam := hs.cartRam ▸ h.cartRam
  ppu hd := hplain hd ▸ h.ppu hd
  bus hd := hplain hd ▸ h.bus hd
  cart hd := hplain hd ▸ h.cart hd

/-- Every byte of storage but the one written reads as before, unless the write switched the bank it is read from. -/
theorem WriteFrame.readByte_eq (h : WriteFrame e s t) (hsame : sameByte a e = false) (hd : IsDevice a = false)
    (hbank : a.toNat < 0x8000 ∨ e.toNat < 0x8000 ∨ s.cart.mapper = .nrom) : readByte a t = readByte a s := by
  by_cases h1 : a.toNat ≤ 0x1FFF
  · rw [readByte_ram _ _ h1, readByte_ram _ _ h1]
    exact h.ram _ fun he => ramIndex_ne_of_sameByte hsame h1 he
  by_cases h2 : a.toNat < 0x6000
  · rw [readByte_unmapped hd (Nat.lt_of_not_le h1) h2, readByte_unmapped hd (Nat.lt_of_not_le h1) h2]
  by_cases h3 : a.toNat < 0x8000
  · have hne : a.toNat ≠ e.toNat := fun he => by
      simp [sameByte, BitVec.eq_of_toNat_eq he] at hsame
    rw [readByte_window (Nat.le_of_not_lt h2) h3, readByte_window (Nat.le_of_not_lt h2) h3, h.mapperId,
      h.cartRam _ fun h4 h5 => by omega]
  · exact readByte_prg_congr (Nat.le_of_not_lt h3) (h.mapper (hbank.resolve_left h3)) h.prgBanks h.prg h.params

/-! ## The forms -/

/-- A storing form that completes is one write, from the state of before. -/
theorem storeOp_eq_next {base : Nat} {src : Cpu → Byte} (hm : InMemory o) (h : storeOp base o src s = .next t) :
    ∃ v, t = (afterWrite (effAddr o s) v (s.setCycles base)).setAdr (effAddr o s) := by
  rw [storeOp, resolve_eq _ _ hm.mode_ne_ind, andThen_next, State.setAdr_cpu_adr, effAddr_setCycles] at h
  obtain ⟨-, h⟩ := busWrite_eq_next _ _ _ h
  exact ⟨_, h.trans (afterWrite_setAdr _ _ _ _)⟩

/-- A modifying form that completes is one read and then one write at the same address (R64, R178). -/
theorem modifyOp_eq_next {base : Nat} {f : Byte → Byte → Byte × Byte} (hm : InMemory o)
    (h : modifyOp base o f s = .next t) :
    ∃ u v p, t = ((afterWrite (effAddr o s) v u).setAdr (effAddr o s)).setP p ∧ SameStorage (s.setCycles base) u ∧
      (IsDevice (effAddr o s) = false → u = s.setCycles base) := by
  rw [modifyOp, resolve_eq _ _ hm.mode_ne_ind, andThen_next] at h
  obtain ⟨r, hr, h⟩ := andThen_eq_next.mp h
  obtain ⟨u, hu, hs, hplain⟩ := readOperand_eq_next hm.readsByte hr
  obtain ⟨w, hw, h⟩ := andThen_eq_next.mp h
  rw [effAddr_setCycles] at hu hplain
  rw [hm.writeOperand, hu, State.setAdr_cpu_adr] at hw
  obtain ⟨-, rfl⟩ := busWrite_eq_next _ _ _ hw
  rw [afterWrite_setAdr, Host.Outcome.next.injEq] at h
  exact ⟨u, _, _, h.symm, hs, fun hd => hplain (.inr hd)⟩

/-- The mnemonics that write memory, from a register or what they read there. -/
def storingMnemonics : List Mnemonic := [.STA, .STX, .STY, .INC, .DEC, .ASL, .LSR, .ROL, .ROR]

/-- The instruction stores a register or modifies a byte of memory. -/
def IsStoringForm (i : Instr) : Prop :=
  InMemory i.operand ∧
    ((∃ base src, exec i = storeOp base i.operand src) ∨
      i.mnemonic ∉ [.STA, .STX, .STY] ∧ ∃ base f, exec i = modifyOp base i.operand f)

/-- Every form with one of the mnemonics that does not work on the accumulator is a storing form: the rows of
R134 to R136, R156, R159, R174 to R177. -/
theorem isStoringForm_of_mnemonic (hi : i.mnemonic ∈ storingMnemonics) (hacc : i.operand ≠ .acc) : IsStoringForm i := by
  cases i with
  | staIzx | staZp0 | staAbs | staIzy | staZpx | staAby | staAbx | stxZp0 | stxAbs | stxZpy | styZp0 | styAbs
  | styZpx =>
    exact ⟨rfl, .inl ⟨_, _, rfl⟩⟩
  | incZp0 | incAbs | incZpx | incAbx | decZp0 | decAbs | decZpx | decAbx | aslZp0 | aslAbs | aslZpx | aslAbx | lsrZp0
  | lsrAbs | lsrZpx | lsrAbx | rolZp0 | rolAbs | rolZpx | rolAbx | rorZp0 | rorAbs | rorZpx | rorAbx =>
    exact ⟨rfl, .inr ⟨by simp [Instr.mnemonic, Instr.row], _, _, rfl⟩⟩
  | aslAcc | lsrAcc | rolAcc | rorAcc => exact absurd rfl hacc
  | _ => simp [storingMnemonics, Instr.mnemonic, Instr.row] at hi

/-- What a storing form leaves alone: memory as by its write, and the registers but for `adr`, `cycles` and the status
register, which only the modifying forms change. -/
theorem exec_storing_frame (hi : IsStoringForm i) (ht : exec i s = .next t) :
    WriteFrame (effAddr i.operand s) s t ∧
      t.cpu = { s.cpu with p := t.cpu.p, adr := t.cpu.adr, cycles := t.cpu.cycles } ∧
      (i.mnemonic ∈ [.STA, .STX, .STY] → t.cpu.p = s.cpu.p) := by
  obtain ⟨hm, ⟨base, src, hexec⟩ | ⟨hnot, base, f, hexec⟩⟩ := hi <;> rw [hexec] at ht
  · obtain ⟨v, rfl⟩ := storeOp_eq_next hm ht
    refine ⟨(writeFrame_afterWrite _ v (s.setCycles base)).mapCpu _, ?_, fun _ => ?_⟩
    · simp only [State.setAdr, State.setCycles, State.mapCpu, afterWrite_cpu]
    · rw [State.setAdr_cpu_p, afterWrite_cpu, State.setCycles_cpu_p]
  · obtain ⟨u, v, p, rfl, hs, hplain⟩ := modifyOp_eq_next hm ht
    have hframe := (writeFrame_afterWrite (effAddr i.operand s) v u).of_sameStorage hs hplain
    refine ⟨hframe.mapCpu fun c => { c with adr := effAddr i.operand s, p := p }, ?_, fun h => absurd h hnot⟩
    simp only [State.setP, State.setAdr, State.setCycles, State.mapCpu, afterWrite_cpu, hs.cpu]

/-- Settles O26: a storing form is one bus write at its effective address, after a read of it or without. -/
theorem storingFormsChangeOneByte : Obligations.StoringFormsChangeOneByte := by
  unfold Obligations.StoringFormsChangeOneByte
  intro i s t hi hacc ht
  obtain ⟨hw, hcpu, hp⟩ := exec_storing_frame (isStoringForm_of_mnemonic hi hacc) ht
  refine ⟨fun a hsame hd hbank => hw.readByte_eq hsame hd hbank, ?_, ?_, ?_, ?_, ?_, hp, hw.prg, hw.params,
    fun hd => ⟨hw.ppu hd, hw.bus hd, hw.cart hd⟩⟩
  all_goals rw [hcpu]

end Sys2Proof.Machine
end

section
/-! PROOF. The encoding (R90, R91, R113): decoding as a relation between an entry of the opcode map, operand bytes and
an instruction, and the two tables compared, from the instructions to the grid and from the grid to the instructions. -/

namespace Sys2Proof

variable {op : Byte} {bs ops rest : List Byte} {e : Entry} {i : Instr}

/-! ## Decoding as a relation -/

/-- The entry makes the instruction from these operand bytes, the low byte of a word first (R90). -/
inductive Entry.Reads : Entry → List Byte → Instr → Prop
  | f1 (i : Instr) : Entry.Reads (.f1 i) [] i
  | f2 (mk : Byte → Instr) (b : Byte) : Entry.Reads (.f2 mk) [b] (mk b)
  | f3 (mk : Word → Instr) (lo hi : Byte) : Entry.Reads (.f3 mk) [lo, hi] (mk (mkWord hi lo))

theorem Entry.Reads.word (mk : Word → Instr) (a : Word) : Entry.Reads (.f3 mk) [loByte a, hiByte a] (mk a) := by
  simpa using Entry.Reads.f3 mk (loByte a) (hiByte a)

theorem Entry.Reads.length_eq (h : e.Reads ops i) : ops.length = e.operandBytes := by
  cases h <;> rfl

/-- Whatever the operand bytes are, there is an instruction (R92). -/
theorem Entry.exists_reads (h : ops.length = e.operandBytes) : ∃ i, e.Reads ops i := by
  cases e with
  | f1 i =>
    obtain rfl := List.length_eq_zero_iff.mp h
    exact ⟨_, .f1 i⟩
  | f2 mk =>
    obtain ⟨b, rfl⟩ := List.length_eq_one_iff.mp h
    exact ⟨_, .f2 mk b⟩
  | f3 mk =>
    obtain ⟨lo, hi, rfl⟩ := List.length_eq_two.mp h
    exact ⟨_, .f3 mk lo hi⟩

theorem decode_reserved (h : lookup op = none) (rest : List Byte) : decode (op :: rest) = .error (.reserved op) := by
  rw [decode, h]

theorem decode_of_reads (hl : lookup op = some e) (h : e.Reads ops i) (rest : List Byte) :
    decode (op :: (ops ++ rest)) = .ok (i, rest) := by
  cases h <;> simp [decode, hl]

/-- A successful decoding looks the first byte up and reads as many more as the entry takes. -/
theorem decode_eq_ok (h : decode bs = .ok (i, rest)) :
    ∃ op e ops, lookup op = some e ∧ e.Reads ops i ∧ bs = op :: (ops ++ rest) := by
  unfold decode at h
  split at h
  · cases h
  · split at h
    · cases h
    · next hl =>
      cases h
      exact ⟨_, _, _, hl, .f1 _, rfl⟩
    · next hl =>
      split at h
      · cases h
        exact ⟨_, _, _, hl, .f2 _ _, rfl⟩
      · cases h
    · next hl =>
      split at h
      · cases h
        exact ⟨_, _, _, hl, .f3 _ _ _, rfl⟩
      · cases h

/-! ## The table by mnemonic and mode, compared with the grid -/

/-- Every instruction the entry makes encodes to the opcode and the operand bytes it was made from. -/
def Entry.Encodes (op : Byte) (e : Entry) : Prop := ∀ ops i, e.Reads ops i → encode i = op :: ops

theorem Entry.encodes_f1 (h : encode i = [op]) : Entry.Encodes op (.f1 i) := by
  rintro _ _ ⟨⟩
  exact h

theorem Entry.encodes_f2 {mk : Byte → Instr} (h : ∀ b, encode (mk b) = [op, b]) : Entry.Encodes op (.f2 mk) := by
  rintro _ _ ⟨⟩
  exact h _

theorem Entry.encodes_f3 {mk : Word → Instr} (h : ∀ a, encode (mk a) = [op, loByte a, hiByte a]) :
    Entry.Encodes op (.f3 mk) := by
  rintro _ _ ⟨⟩
  simpa using h (mkWord _ _)

/-- The grid's entry for an instruction's opcode makes the instruction from its operand bytes, and every instruction it
makes has that opcode. The cases are the three formats of R90. -/
theorem lookup_opcode (i : Instr) :
    ∃ e, lookup i.row.opcode = some e ∧ e.Reads i.operand.bytes i ∧ e.Encodes i.row.opcode := by
  cases i with
  | tax | tay | txa | tya | tsx | txs | inx | iny | dex | dey | aslAcc | lsrAcc | rolAcc | rorAcc | rts | pha | php | pla
  | plp | clc | sec | cli | sei | cld | sed | clv | nop | brk | rti =>
    dsimp only [Instr.row]
    exact ⟨_, rfl, .f1 _, Entry.encodes_f1 rfl⟩
  | ldaAbs | ldaAby | ldaAbx | ldxAbs | ldxAby | ldyAbs | ldyAbx | staAbs | staAby | staAbx | stxAbs | styAbs | adcAbs
  | adcAby | adcAbx | sbcAbs | sbcAby | sbcAbx | cmpAbs | cmpAby | cmpAbx | cpxAbs | cpyAbs | incAbs | incAbx | decAbs
  | decAbx | andAbs | andAby | andAbx | oraAbs | oraAby | oraAbx | eorAbs | eorAby | eorAbx | bitAbs | aslAbs | aslAbx
  | lsrAbs | lsrAbx | rolAbs | rolAbx | rorAbs | rorAbx | jmpAbs | jmpInd | jsr =>
    dsimp only [Instr.row]
    exact ⟨_, rfl, .word _ _, Entry.encodes_f3 fun _ => rfl⟩
  | _ =>
    dsimp only [Instr.row]
    exact ⟨_, rfl, .f2 _ _, Entry.encodes_f2 fun _ => rfl⟩

/-- Settles O1: the grid's entry for the instruction's opcode reads its operand bytes back. -/
theorem decodeOfEncodeIsTheInstruction : Obligations.DecodeOfEncodeIsTheInstruction := by
  unfold Obligations.DecodeOfEncodeIsTheInstruction
  intro i rest
  obtain ⟨e, hl, hr, -⟩ := lookup_opcode i
  exact decode_of_reads hl hr rest

set_option maxRecDepth 4000 in
/-- One instruction of each entry has the entry's position in the grid as its opcode in the table. -/
theorem opcode_entrySample_all :
    ((List.range 256).all fun n =>
      (lookup (BitVec.ofNat 8 n)).all fun e => (Machine.entrySample e).row.opcode == BitVec.ofNat 8 n) = true := by
  decide

theorem opcode_entrySample (hl : lookup op = some e) : (Machine.entrySample e).row.opcode = op := by
  have h := List.all_eq_true.mp opcode_entrySample_all op.toNat (List.mem_range.mpr op.isLt)
  simpa [hl] using h

theorem encodes_of_lookup (hl : lookup op = some e) : e.Encodes op := by
  obtain ⟨e', hl', -, he⟩ := lookup_opcode (Machine.entrySample e)
  rw [opcode_entrySample hl] at hl' he
  obtain rfl : e = e' := Option.some.inj (hl.symm.trans hl')
  exact he

/-- Settles O2: the decoded bytes are an opcode and the operand bytes its entry read. -/
theorem encodeOfDecodeIsTheBytes : Obligations.EncodeOfDecodeIsTheBytes := by
  unfold Obligations.EncodeOfDecodeIsTheBytes
  intro bs rest i h
  obtain ⟨op, e, ops, hl, hr, rfl⟩ := decode_eq_ok h
  rw [encodes_of_lookup hl ops i hr, List.cons_append]

/-! ## The reserved bytes and the spec's words -/

theorem lookup_eq_none : lookup op = none ↔ op ∈ reservedOpcodes := by
  rw [← Option.isNone_iff_eq_none, Machine.lookup_isNone, decide_eq_true_eq]

theorem exists_lookup (h : op ∉ reservedOpcodes) : ∃ e, lookup op = some e :=
  Option.ne_none_iff_exists'.mp (mt lookup_eq_none.mp h)

theorem Entry.operandBytes_le (e : Entry) : e.operandBytes ≤ 2 := by
  cases e <;> simp [Entry.operandBytes]

theorem reservedOpcodes_nodup : reservedOpcodes.Nodup := by decide

/-- Settles O3: an assigned byte's entry takes none, one or two of the operand bytes. -/
theorem reservedOpcodeBytesDoNotDecode : Obligations.ReservedOpcodeBytesDoNotDecode := by
  unfold Obligations.ReservedOpcodeBytesDoNotDecode
  refine ⟨fun op rest h => decode_reserved (lookup_eq_none.mpr h) rest, fun op b1 b2 h => ?_, rfl,
    reservedOpcodes_nodup⟩
  obtain ⟨e, hl⟩ := exists_lookup h
  have hlen : ([b1, b2].take e.operandBytes).length = e.operandBytes :=
    List.length_take_of_le e.operandBytes_le
  obtain ⟨i, hr⟩ := Entry.exists_reads hlen
  exact ⟨_, List.take_append_drop e.operandBytes [b1, b2] ▸ decode_of_reads hl hr _⟩

/-- A word whose bytes begin with an encoding decodes to its instruction (R90). -/
theorem decodeTableWord_of_encode {n w : Nat} (rest : List Byte) (h : wordBytes n w = encode i ++ rest) :
    decodeTableWord n w = some i := by
  rw [decodeTableWord, h, decodeOfEncodeIsTheInstruction i rest]

/-- Settles O4: each word's bytes are an encoding and the padding of the shorter formats. -/
theorem specWordsDecodeAsTheSpecSays : Obligations.SpecWordsDecodeAsTheSpecSays := by
  unfold Obligations.SpecWordsDecodeAsTheSpecSays
  refine ⟨?lda, ?sta, ?inc, ?jmp, ?jsr, ?beq, ?asl, ?bit, ?brk, ?ldaIzy, ?ldxZpy⟩
  case lda | inc | beq | ldaIzy | ldxZpy => exact decodeTableWord_of_encode [0] rfl
  case sta | jmp | jsr | bit => exact decodeTableWord_of_encode [] rfl
  case asl | brk => exact decodeTableWord_of_encode [0, 0] rfl

end Sys2Proof
end

section
/-! PROOF. What one step runs (R93, R108, R109, R245): the fetch of an instruction whose opcode is assigned, and the step
of a machine that owes no cycle. -/

namespace Sys2Proof.Machine

variable {s t : State} {a : Word} {e : Entry} {i : Instr}

/-! ## The fetch -/

theorem length_bytesAt (n : Nat) (a : Word) (s : State) : (bytesAt n a s).1.length = n := by
  induction n generalizing a s with
  | zero => rfl
  | succ n ih => exact congrArg (· + 1) (ih _ _)

theorem bytesAt_succ_fst (n : Nat) (a : Word) (s : State) :
    (bytesAt (n + 1) a s).1 = readByte a s :: (bytesAt n (a + 1) (afterRead a s)).1 := rfl

theorem bytesAt_succ_snd (n : Nat) (a : Word) (s : State) :
    (bytesAt (n + 1) a s).2 = (bytesAt n (a + 1) (afterRead a s)).2 := rfl

theorem codeOpen_succ {c : Cart} {n : Nat} :
    codeOpen c (n + 1) a = true ↔ Blocked c a = false ∧ codeOpen c n (a + 1) = true := by
  simp [codeOpen]

theorem fetchInstr_blocked (hb : Blocked s.cart s.cpu.pc = true) :
    fetchInstr s = .fault (.unimplemented s.cpu.pc) := by
  rw [fetchInstr, fetchByte_blocked _ hb, andThen_fault]

/-- The fault of R93. -/
theorem fetchInstr_reserved (hb : Blocked s.cart s.cpu.pc = false) (hl : lookup (readByte s.cpu.pc s) = none) :
    fetchInstr s = .fault (.illegalOpcode (readByte s.cpu.pc s) s.cpu.pc) := by
  rw [fetchInstr, fetchByte_eq _ hb, andThen_next]
  dsimp only
  rw [hl]

/-- Under an assigned opcode the fetch goes on with as many operand bytes as its entry takes, and gives the instruction
the entry makes from them (R108). -/
theorem fetchInstr_assigned (hb : Blocked s.cart s.cpu.pc = false) (hl : lookup (readByte s.cpu.pc s) = some e) :
    ∃ f : List Byte × State → Res (Instr × State),
      fetchInstr s = andThen (fetchBytes e.operandBytes ((afterRead s.cpu.pc s).setPc (s.cpu.pc + 1))) f ∧
        ∀ ops u i, e.Reads ops i → f (ops, u) = .next (i, u) := by
  rw [fetchInstr, fetchByte_eq _ hb, andThen_next]
  dsimp only
  rw [hl]
  refine ⟨_, rfl, fun ops u i h => ?_⟩
  have hd := decode_of_reads hl h []
  rw [List.append_nil] at hd
  dsimp only
  rw [hd]

/-- The first of `n + 1` addresses, and then the other `n`. -/
theorem add_one_add_ofNat_word (a : Word) (n : Nat) : a + 1 + BitVec.ofNat 16 n = a + BitVec.ofNat 16 (n + 1) := by
  bv_omega

/-- The fetch of an instruction whose bytes can be read is those reads in address order (R108, R109). -/
theorem fetchInstr_eq (hopen : codeOpen s.cart i.length s.cpu.pc = true)
    (hd : decode (bytesAt i.length s.cpu.pc s).1 = .ok (i, [])) :
    fetchInstr s =
      .next (i, (bytesAt i.length s.cpu.pc s).2.setPc (s.cpu.pc + BitVec.ofNat 16 i.length)) := by
  obtain ⟨op, e, ops, hl, hr, hbytes⟩ := decode_eq_ok hd
  rw [List.append_nil] at hbytes
  have hlen : i.length = e.operandBytes + 1 := by
    rw [← length_bytesAt i.length s.cpu.pc s, hbytes, List.length_cons, hr.length_eq]
  rw [hlen] at hopen hbytes ⊢
  obtain ⟨hb, hrest⟩ := codeOpen_succ.mp hopen
  obtain ⟨rfl, rfl⟩ := List.cons.inj hbytes
  obtain ⟨f, hf, hnext⟩ := fetchInstr_assigned hb hl
  rw [hf, fetchBytes_eq _ _ (by simpa using hrest), andThen_next, State.setPc_cpu_pc, bytesAt_setPc,
    hnext _ _ i hr, State.setPc_setPc, add_one_add_ofNat_word, bytesAt_succ_snd]

/-! ## The step -/

/-- The machine at the end of a clock: one owed cycle is counted down and the master counter moves on (R108, R247). -/
def counted (u : State) : State :=
  (u.setCycles (u.cpu.cycles - 1)).mapBus fun b => { b with master := b.master + 1 }

/-- A step that owes a cycle after its dots completes. -/
theorem step_owing_next (ht : threeDots s = .next t) (hc : t.cpu.cycles ≠ 0) : step s = .next (counted t) := by
  rw [step, busClock, ht, andThen_next, cpuClock_owing _ hc, andThen_next]
  rfl

/-- A step that owes none after its dots runs one instruction (R108, R245). -/
theorem step_running (ht : threeDots s = .next t) (hc : t.cpu.cycles = 0) :
    step s = andThen (fetchInstr t) fun r => andThen (exec r.1 r.2) fun u => .next (counted u) := by
  rw [step, busClock, ht, andThen_next, cpuClock_running _ hc, runInstr, andThen_assoc, andThen_assoc]
  simp only [andThen_next]
  rfl

/-! ## Reads of plain storage -/

/-- Plain storage is no device (R65, R66, R393). -/
theorem isDevice_of_plainStorage (h : plainStorage s a = true) : IsDevice a = false := by
  have hrange : a.toNat ≤ 0x1FFF ∨ 0x6000 ≤ a.toNat := by
    unfold plainStorage at h
    rcases mapCpuRead_cases s.params s.cart a with ⟨-, hm⟩ | ⟨-, -, hm⟩ | ⟨-, h8, -⟩
    · simp [hm] at h
    · simp only [hm, Bool.or_eq_true, Bool.and_eq_true, decide_eq_true_eq] at h
      omega
    · omega
  simp only [IsDevice, Bool.or_eq_false_iff, Bool.and_eq_false_iff, decide_eq_false_iff_not, beq_eq_false_iff_ne]
  refine ⟨⟨by omega, ?_⟩, ?_⟩ <;> bv_omega

/-- Reads of plain storage leave the machine as it is (R65, R66). -/
theorem bytesAt_plainStorage {n : Nat} (h : ∀ k < n, plainStorage t (a + BitVec.ofNat 16 k) = true) :
    (bytesAt n a t).2 = t := by
  induction n generalizing a with
  | zero => rfl
  | succ n ih =>
    have h0 : plainStorage t a = true := by simpa using h 0 (Nat.succ_pos n)
    rw [bytesAt_succ_snd, afterRead_plain _ _ (isDevice_of_plainStorage h0)]
    refine ih fun k hk => ?_
    rw [add_one_add_ofNat_word]
    exact h (k + 1) (Nat.succ_lt_succ hk)

/-- Settles O5: the fetch reads the instruction's bytes in address order, and the step goes on with its meaning. -/
theorem stepRunsTheDecodedInstruction : Obligations.StepRunsTheDecodedInstruction := by
  unfold Obligations.StepRunsTheDecodedInstruction
  intro s t i ht hc hopen hd
  refine ⟨?_, bytesAt_plainStorage⟩
  rw [step_running ht hc, fetchInstr_eq hopen hd, andThen_next]
  rfl

end Sys2Proof.Machine
end

section
/-! PROOF. Where a step stops (R93, R130, R352, R380, R391): every operation either completes and keeps the cartridge's
mapper, or is the fault of an access in the MMC1's window; the reserved opcode is the fetch's own fault. -/

namespace Sys2Proof.Machine

variable {s t : State} {c : Cart} {a : Word} {i : Instr}

/-! ## Operations that stop in the window only -/

section

variable {α β : Type} {P : α → Prop} {Q : β → Prop} {r : Res α}

/-- The operation answers a state that meets `P`, or it is the fault of an access in the window of the cartridge. -/
inductive CompletesOrBlocked (c : Cart) (P : α → Prop) : Res α → Prop
  | next {x : α} (h : P x) : CompletesOrBlocked c P (.next x)
  | fault {a : Word} (h : Blocked c a = true) : CompletesOrBlocked c P (.fault (.unimplemented a))

theorem CompletesOrBlocked.andThen {f : α → Res β} (hr : CompletesOrBlocked c P r)
    (hf : ∀ x, P x → CompletesOrBlocked c Q (f x)) : CompletesOrBlocked c Q (andThen r f) := by
  cases hr with
  | next h => exact hf _ h
  | fault h => exact .fault h

theorem CompletesOrBlocked.ne_refused {e : Refusal} (h : CompletesOrBlocked c P r) : r ≠ .refused e := by
  rintro rfl
  cases h

theorem CompletesOrBlocked.of_fault {e : Fault} (h : CompletesOrBlocked c P (.fault e)) :
    ∃ a, e = .unimplemented a ∧ Blocked c a = true := by
  cases h with
  | fault h => exact ⟨_, rfl, h⟩

/-- With NROM no access faults (R352). -/
theorem CompletesOrBlocked.exists_next (hc : c.mapper = .nrom) (h : CompletesOrBlocked c P r) : ∃ x, r = .next x := by
  cases h with
  | next => exact ⟨_, rfl⟩
  | fault h => simp [blocked_nrom _ _ hc] at h

end

/-- The machine has the mapper of the cartridge, so that the same accesses fault (R352). -/
def HasMapper (c : Cart) (s : State) : Prop := s.cart.mapperId = c.mapperId

theorem HasMapper.blocked (h : HasMapper c s) (a : Word) : Blocked s.cart a = Blocked c a := blocked_congr a h

theorem hasMapper_self (s : State) : HasMapper s.cart s := rfl

/-! ## The bus -/

theorem busRead_completesOrBlocked (a : Word) (h : HasMapper c s) :
    CompletesOrBlocked c (fun r => HasMapper c r.2) (busRead a s) := by
  cases hb : Blocked s.cart a with
  | true =>
    rw [busRead_blocked _ _ hb]
    exact .fault (h.blocked a ▸ hb)
  | false =>
    rw [busRead_open _ _ hb]
    exact .next (by rwa [HasMapper, afterRead_cart])

theorem busWrite_completesOrBlocked (a : Word) (v : Byte) (h : HasMapper c s) :
    CompletesOrBlocked c (HasMapper c) (busWrite a v s) := by
  cases hb : Blocked s.cart a with
  | true =>
    rw [busWrite_blocked _ _ _ hb]
    exact .fault (h.blocked a ▸ hb)
  | false =>
    obtain ⟨-, -, -, -, -, -, hid, -⟩ := afterWrite_fixed a s v
    rw [busWrite_open _ _ _ hb]
    exact .next (hid.trans h)

/-! ## The shapes of instruction -/

theorem readPointer_completesOrBlocked (pl ph : Word) (h : HasMapper c s) :
    CompletesOrBlocked c (fun r => HasMapper c r.2) (readPointer pl ph s) :=
  (busRead_completesOrBlocked pl h).andThen fun _ h1 =>
    (busRead_completesOrBlocked ph h1).andThen fun _ h2 => .next h2

theorem resolve_completesOrBlocked (o : Operand) (h : HasMapper c s) :
    CompletesOrBlocked c (fun r => HasMapper c r.2) (resolve o s) := by
  cases o with
  | ind w => exact (readPointer_completesOrBlocked _ _ h).andThen fun _ h1 => .next h1
  | _ =>
    rw [resolve_eq _ _ (by simp [Operand.mode])]
    exact .next h

theorem readOperand_completesOrBlocked (o : Operand) (h : HasMapper c s) :
    CompletesOrBlocked c (fun r => HasMapper c r.2) (readOperand o s) := by
  unfold readOperand
  split
  · exact .next h
  · exact .next h
  · exact busRead_completesOrBlocked _ h

theorem writeOperand_completesOrBlocked (o : Operand) (v : Byte) (h : HasMapper c s) :
    CompletesOrBlocked c (HasMapper c) (writeOperand o v s) := by
  unfold writeOperand
  split
  · exact .next h
  · exact busWrite_completesOrBlocked _ v h

theorem readOp_completesOrBlocked {base : Nat} {plus : Bool} {o : Operand} {f : Byte → Cpu → Cpu}
    (h : HasMapper c s) : CompletesOrBlocked c (HasMapper c) (readOp base plus o f s) :=
  (resolve_completesOrBlocked (s := s.setCycles base) o h).andThen fun _ h1 =>
    (readOperand_completesOrBlocked o h1).andThen fun _ h2 => .next h2

theorem storeOp_completesOrBlocked {base : Nat} {o : Operand} {src : Cpu → Byte} (h : HasMapper c s) :
    CompletesOrBlocked c (HasMapper c) (storeOp base o src s) :=
  (resolve_completesOrBlocked (s := s.setCycles base) o h).andThen fun _ h1 => busWrite_completesOrBlocked _ _ h1

theorem modifyOp_completesOrBlocked {base : Nat} {o : Operand} {f : Byte → Byte → Byte × Byte} (h : HasMapper c s) :
    CompletesOrBlocked c (HasMapper c) (modifyOp base o f s) :=
  (resolve_completesOrBlocked (s := s.setCycles base) o h).andThen fun _ h1 =>
    (readOperand_completesOrBlocked o h1).andThen fun _ h2 =>
      (writeOperand_completesOrBlocked o _ h2).andThen fun _ h3 => .next h3

theorem branchOp_completesOrBlocked {cond : Byte → Bool} {off : Byte} (h : HasMapper c s) :
    CompletesOrBlocked c (HasMapper c) (branchOp cond off s) := by
  cases hc : cond s.cpu.p with
  | true =>
    rw [branchOp_taken _ _ _ hc]
    exact .next h
  | false =>
    rw [branchOp_untaken _ _ _ hc]
    exact .next h

/-- A stack form accesses RAM and PRG only, so it completes. -/
theorem IsStackForm.completesOrBlocked {pushes pulls : Nat} (hi : IsStackForm i pushes pulls s) (h : HasMapper c s) :
    CompletesOrBlocked c (HasMapper c) (exec i s) := by
  obtain ⟨vs, f, hexec, -, -⟩ := hi
  rw [hexec]
  refine .next ?_
  rw [pushedAll_frame]
  exact h

/-- Where an instruction accesses its operand: by one of the three shapes that do, or not at all. The other operands in
memory are those of JMP and JSR, which use the address itself (R190, R191). -/
inductive OperandAccess (i : Instr) : Prop
  | reads {base : Nat} {plus : Bool} {f : Byte → Cpu → Cpu} (h : exec i = readOp base plus i.operand f)
  | stores {base : Nat} {src : Cpu → Byte} (h : exec i = storeOp base i.operand src)
  | modifies {base : Nat} {f : Byte → Byte → Byte × Byte} (h : exec i = modifyOp base i.operand f)
  | other (hm : InMemory i.operand → i.mnemonic ∈ [.JMP, .JSR])
      (hc : ∀ {c s}, HasMapper c s → CompletesOrBlocked c (HasMapper c) (exec i s))

theorem operandAccess_of_not_inMemory (hi : inMemory i.operand = false)
    (hc : ∀ {c s}, HasMapper c s → CompletesOrBlocked c (HasMapper c) (exec i s)) : OperandAccess i :=
  .other (fun hm => absurd (hi.symm.trans hm) Bool.false_ne_true) hc

theorem operandAccess (i : Instr) : OperandAccess i := by
  cases i with
  | staIzx | staZp0 | staAbs | staIzy | staZpx | staAby | staAbx | stxZp0 | stxAbs | stxZpy | styZp0 | styAbs | styZpx =>
    exact .stores rfl
  | incZp0 | incAbs | incZpx | incAbx | decZp0 | decAbs | decZpx | decAbx | aslZp0 | aslAcc | aslAbs | aslZpx | aslAbx
  | lsrZp0 | lsrAcc | lsrAbs | lsrZpx | lsrAbx | rolZp0 | rolAcc | rolAbs | rolZpx | rolAbx | rorZp0 | rorAcc | rorAbs
  | rorZpx | rorAbx =>
    exact .modifies rfl
  | tax | tay | txa | tya | tsx | txs | inx | iny | dex | dey | clc | sec | cli | sei | cld | sed | clv | nop =>
    exact operandAccess_of_not_inMemory rfl fun h => .next h
  | bcc | bcs | beq | bne | bmi | bpl | bvc | bvs =>
    refine operandAccess_of_not_inMemory rfl fun h => ?_
    unfold exec
    exact branchOp_completesOrBlocked h
  | jmpAbs w => exact .other (fun _ => List.mem_cons_self) fun h => .next h
  | jmpInd w =>
    exact operandAccess_of_not_inMemory rfl fun {_ s} h =>
      (resolve_completesOrBlocked (s := s.setCycles 5) (.ind w) h).andThen fun _ h1 => .next h1
  | jsr w =>
    exact .other (fun _ => List.mem_cons_of_mem _ List.mem_cons_self) (isStackForm_jsr w _).completesOrBlocked
  | rts => exact operandAccess_of_not_inMemory rfl (isStackForm_rts _).completesOrBlocked
  | pha => exact operandAccess_of_not_inMemory rfl (isStackForm_pha _).completesOrBlocked
  | php => exact operandAccess_of_not_inMemory rfl (isStackForm_php _).completesOrBlocked
  | pla => exact operandAccess_of_not_inMemory rfl (isStackForm_pla _).completesOrBlocked
  | plp => exact operandAccess_of_not_inMemory rfl (isStackForm_plp _).completesOrBlocked
  | brk => exact operandAccess_of_not_inMemory rfl (isStackForm_brk _).completesOrBlocked
  | rti => exact operandAccess_of_not_inMemory rfl (isStackForm_rti _).completesOrBlocked
  | _ => exact .reads rfl

theorem exec_completesOrBlocked (i : Instr) (h : HasMapper c s) : CompletesOrBlocked c (HasMapper c) (exec i s) := by
  cases operandAccess i with
  | reads hi => exact hi ▸ readOp_completesOrBlocked h
  | stores hi => exact hi ▸ storeOp_completesOrBlocked h
  | modifies hi => exact hi ▸ modifyOp_completesOrBlocked h
  | other _ hc => exact hc h

/-! ## The fetch -/

theorem fetchByte_completesOrBlocked (h : HasMapper c s) :
    CompletesOrBlocked c (fun r => HasMapper c r.2) (fetchByte s) :=
  (busRead_completesOrBlocked _ h).andThen fun _ h1 => .next h1

theorem fetchBytes_completesOrBlocked (n : Nat) (h : HasMapper c s) :
    CompletesOrBlocked c (fun r => r.1.length = n ∧ HasMapper c r.2) (fetchBytes n s) := by
  induction n generalizing s with
  | zero => exact .next ⟨rfl, h⟩
  | succ n ih =>
    exact (fetchByte_completesOrBlocked h).andThen fun _ h1 =>
      (ih h1).andThen fun _ ⟨hlen, h2⟩ => .next ⟨congrArg (· + 1) hlen, h2⟩

/-- Under an assigned opcode every fetched sequence of operand bytes decodes (R92). -/
theorem fetchInstr_completesOrBlocked (h : readByte s.cpu.pc s ∉ reservedOpcodes) :
    CompletesOrBlocked s.cart (fun r => HasMapper s.cart r.2) (fetchInstr s) := by
  cases hb : Blocked s.cart s.cpu.pc with
  | true =>
    rw [fetchInstr_blocked hb]
    exact .fault hb
  | false =>
    obtain ⟨e, hl⟩ := exists_lookup h
    obtain ⟨f, hf, hnext⟩ := fetchInstr_assigned hb hl
    have hm : HasMapper s.cart ((afterRead s.cpu.pc s).setPc (s.cpu.pc + 1)) := by
      rw [HasMapper, State.setPc_cart, afterRead_cart]
    rw [hf]
    refine (fetchBytes_completesOrBlocked _ hm).andThen fun bs ⟨hlen, h1⟩ => ?_
    obtain ⟨i, hr⟩ := Entry.exists_reads hlen
    rw [hnext bs.1 bs.2 i hr]
    exact .next h1

/-! ## The step -/

/-- The faults of a fetch at PC (R93, R352). -/
theorem step_blocked (ht : threeDots s = .next t) (hc : t.cpu.cycles = 0) (hb : Blocked t.cart t.cpu.pc = true) :
    step s = .fault (.unimplemented t.cpu.pc) := by
  rw [step_running ht hc, fetchInstr_blocked hb, andThen_fault]

theorem step_reserved (ht : threeDots s = .next t) (hc : t.cpu.cycles = 0) (hb : Blocked t.cart t.cpu.pc = false)
    (hr : readByte t.cpu.pc t ∈ reservedOpcodes) :
    step s = .fault (.illegalOpcode (readByte t.cpu.pc t) t.cpu.pc) := by
  rw [step_running ht hc, fetchInstr_reserved hb (lookup_eq_none.mpr hr), andThen_fault]

theorem step_assigned (ht : threeDots s = .next t) (hr : t.cpu.cycles = 0 → readByte t.cpu.pc t ∉ reservedOpcodes) :
    CompletesOrBlocked t.cart (HasMapper t.cart) (step s) := by
  by_cases hc : t.cpu.cycles = 0
  · rw [step_running ht hc]
    exact (fetchInstr_completesOrBlocked (hr hc)).andThen fun r h1 =>
      (exec_completesOrBlocked r.1 h1).andThen fun _ h2 => .next h2
  · rw [step_owing_next ht hc]
    exact .next (hasMapper_self t)

/-- All that a step can do: stop at a reserved opcode outside the window, or complete unless an access is blocked. -/
theorem step_cases (s : State) : ∃ t, threeDots s = .next t ∧ t.cart = s.cart ∧
    (t.cpu.cycles = 0 ∧ readByte t.cpu.pc t ∈ reservedOpcodes ∧
        step s = .fault (.illegalOpcode (readByte t.cpu.pc t) t.cpu.pc) ∨
      CompletesOrBlocked s.cart (HasMapper s.cart) (step s)) := by
  obtain ⟨t, ht, hcart, -, -⟩ := threeDots_next s
  refine ⟨t, ht, hcart, ?_⟩
  rw [← hcart]
  by_cases hr : t.cpu.cycles = 0 → readByte t.cpu.pc t ∉ reservedOpcodes
  · exact .inr (step_assigned ht hr)
  · obtain ⟨hc, hr⟩ := Classical.not_imp.mp hr
    rw [not_not] at hr
    cases hb : Blocked t.cart t.cpu.pc with
    | true =>
      rw [step_blocked ht hc hb]
      exact .inr (.fault hb)
    | false => exact .inl ⟨hc, hr, step_reserved ht hc hb hr⟩

/-- Settles O43, by the two things a step can do. -/
theorem onlyTheTwoFaultsStopARun : Obligations.OnlyTheTwoFaultsStopARun := by
  unfold Obligations.OnlyTheTwoFaultsStopARun
  intro s
  obtain ⟨t, ht, hcart, ⟨hc, hr, hstep⟩ | hstep⟩ := step_cases s
  · rw [hstep]
    refine ⟨nofun, nofun, ?_, fun t' ht' _ hn => ?_⟩
    · rintro _ _ ⟨⟩
      exact ⟨t, ht, hc, rfl, rfl, hr⟩
    · obtain rfl : t = t' := Host.Outcome.next.inj (ht.symm.trans ht')
      exact absurd hr (hn hc)
  · refine ⟨fun _ => hstep.ne_refused, fun a h => ?_, fun op a h => ?_, fun _ _ hm _ => hstep.exists_next hm⟩
    · obtain ⟨_, ⟨⟩, hb⟩ := (h ▸ hstep).of_fault
      exact (blocked_iff _ _).mp hb
    · obtain ⟨_, ⟨⟩, -⟩ := (h ▸ hstep).of_fault

/-! ## The instructions whose operand lies in the window -/

theorem inMemory_of_mode {o : Operand} (h : o.mode ∉ [.imp, .acc, .imm, .rel, .ind]) : InMemory o := by
  cases o with
  | imp | acc | imm | rel | ind => simp [Operand.mode] at h
  | _ => rfl

/-- The first access of an operand in memory is at its effective address, a read or a write. -/
theorem exec_blocked (hm : InMemory i.operand) (hj : i.mnemonic ∉ [.JMP, .JSR])
    (hb : Blocked s.cart (effAddr i.operand s) = true) :
    exec i s = .fault (.unimplemented (effAddr i.operand s)) := by
  cases operandAccess i with
  | reads hi => rw [hi, readOp_blocked _ _ _ _ _ hm hb]
  | stores hi => rw [hi, storeOp_blocked _ _ _ _ hm hb]
  | modifies hi => rw [hi, modifyOp_blocked _ _ _ _ hm hb]
  | other hno _ => exact absurd (hno hm) hj

theorem exec_jmpInd_blocked (hb : Blocked s.cart a = true) : exec (.jmpInd a) s = .fault (.unimplemented a) := by
  have h : Blocked (s.setCycles 5).cart a = true := hb
  rw [exec, execJmpInd, resolve, readPointer, busRead_blocked _ _ h]
  rfl

/-- Settles O23: the fetch faults at PC, and an instruction at its first access in the window. -/
theorem faultsAreRaisedWhereTheSpecSays : Obligations.FaultsAreRaisedWhereTheSpecSays := by
  unfold Obligations.FaultsAreRaisedWhereTheSpecSays
  exact ⟨fun s t ht hc => ⟨step_blocked ht hc, step_reserved ht hc⟩,
    fun i s hm hj => exec_blocked (inMemory_of_mode hm) hj, fun a s => exec_jmpInd_blocked⟩

end Sys2Proof.Machine
end

section
/-! PROOF. Loads, stores and transfers (40_load_store_transfer.md): which shape each form is, its base cycles and extra
cycles being those of its row, and the outcome of the shape in the terms of the statements. The reading forms and the
forms on registers include those of 41_arithmetic.md and 42_logic_shift.md. -/

namespace Sys2Proof.Machine

variable {s t : State} {i : Instr}

/-! ## The cost of an instruction from its row (R107, R108) -/

/-- The extra cycle as the reading shape counts it. -/
theorem charged_eq : charged i s t =
    t.setCycles (i.row.base + (decide (i.row.extra = .pageCross) && crossesPage i.operand s).toNat) := by
  rw [charged, extraCycles]
  by_cases h : i.row.extra = .pageCross <;> simp [h]

theorem charged_of_extra_none (h : i.row.extra = .none) : charged i s t = t.setCycles i.row.base := by
  simp [charged_eq, h]

/-! ## The forms that read a value -/

/-- What a reading mnemonic does to the registers by the value read (R131 to R133, R151 to R155, R170 to R173). -/
def readEffect : Mnemonic → Byte → Cpu → Cpu
  | .LDA => ldaEffect
  | .LDX => ldxEffect
  | .LDY => ldyEffect
  | .ADC => adcEffect
  | .SBC => sbcEffect
  | .CMP => cmpEffect
  | .CPX => cpxEffect
  | .CPY => cpyEffect
  | .AND => andEffect
  | .ORA => oraEffect
  | .EOR => eorEffect
  | .BIT => bitEffect
  | _ => fun _ c => c

/-- No effect looks at `cycles` or writes it. -/
theorem readEffect_withCycles (m : Mnemonic) (v : Byte) (c : Cpu) (n : Nat) :
    readEffect m v { c with cycles := n } = { readEffect m v c with cycles := n } := by
  cases m <;> rfl

/-- A reading form is the reading shape with the cycles of its row. -/
theorem exec_reading (hi : i.mnemonic ∈ readingMnemonics) :
    exec i = readOp i.row.base (decide (i.row.extra = .pageCross)) i.operand (readEffect i.mnemonic) := by
  cases i with
  | ldaIzx | ldaZp0 | ldaImm | ldaAbs | ldaIzy | ldaZpx | ldaAby | ldaAbx | ldxImm | ldxZp0 | ldxAbs | ldxZpy | ldxAby
  | ldyImm | ldyZp0 | ldyAbs | ldyZpx | ldyAbx => rfl
  | adcIzx | adcZp0 | adcImm | adcAbs | adcIzy | adcZpx | adcAby | adcAbx | sbcIzx | sbcZp0 | sbcImm | sbcAbs | sbcIzy
  | sbcZpx | sbcAby | sbcAbx | cmpIzx | cmpZp0 | cmpImm | cmpAbs | cmpIzy | cmpZpx | cmpAby | cmpAbx | cpxImm | cpxZp0
  | cpxAbs | cpyImm | cpyZp0 | cpyAbs => rfl
  | andIzx | andZp0 | andImm | andAbs | andIzy | andZpx | andAby | andAbx | oraIzx | oraZp0 | oraImm | oraAbs | oraIzy
  | oraZpx | oraAby | oraAbx | eorIzx | eorZp0 | eorImm | eorAbs | eorIzy | eorZpx | eorAby | eorAbx | bitZp0
  | bitAbs => rfl
  | _ => simp [readingMnemonics, Instr.mnemonic, Instr.row] at hi

/-- A reading form whose operand is open completes: one read of its operand, its effect, the cost of its row. -/
theorem exec_eq_readsAndSets (m : Mnemonic) (hi : i.mnemonic = m) (hm : m ∈ readingMnemonics)
    (ho : OperandOpen i.operand s = true) :
    exec i s = readsAndSets i s (readEffect m (operandValue i.operand s)) := by
  subst hi
  obtain ⟨-, -, -, -, hreads, -⟩ := isReadingForm_of_mnemonic hm
  rw [exec_reading hm, readOp_eq _ _ _ _ _ hreads ho (readEffect_withCycles _), readsAndSets, charged_eq]

/-! ## The forms that store a register -/

/-- The register a storing mnemonic stores (R134 to R136). -/
def storedRegister : Mnemonic → Cpu → Byte
  | .STX => Cpu.x
  | .STY => Cpu.y
  | _ => Cpu.a

theorem storedRegister_withCycles_withAdr (m : Mnemonic) (c : Cpu) (n : Nat) (v : Word) :
    storedRegister m { c with cycles := n, adr := v } = storedRegister m c := by
  cases m <;> rfl

/-- A form of STA, STX or STY is the storing shape with the base cycles of its row, which has no extra cycle. -/
theorem exec_storing (hi : i.mnemonic ∈ [.STA, .STX, .STY]) :
    exec i = storeOp i.row.base i.operand (storedRegister i.mnemonic) ∧ InMemory i.operand ∧ i.row.extra = .none := by
  cases i with
  | staIzx | staZp0 | staAbs | staIzy | staZpx | staAby | staAbx | stxZp0 | stxAbs | stxZpy | styZp0 | styAbs | styZpx =>
    exact ⟨rfl, rfl, rfl⟩
  | _ => simp [Instr.mnemonic, Instr.row] at hi

/-- A store whose operand is open completes: one write of its register at the effective address. -/
theorem exec_eq_storesByte (m : Mnemonic) (hi : i.mnemonic = m) (hm : m ∈ [.STA, .STX, .STY])
    (ho : OperandOpen i.operand s = true) :
    exec i s = storesByte i s (storedRegister m s.cpu) := by
  subst hi
  obtain ⟨hexec, hmem, hextra⟩ := exec_storing hm
  rw [hexec, storeOp_eq _ _ _ _ hmem ho (storedRegister_withCycles_withAdr _), storesByte,
    charged_of_extra_none hextra]

/-! ## The forms on registers -/

/-- What a mnemonic that copies, counts up or counts down a register does (R137 to R142, R157, R158, R160, R161). -/
def registerEffect : Mnemonic → Cpu → Cpu
  | .TAX => taxEffect
  | .TAY => tayEffect
  | .TXA => txaEffect
  | .TYA => tyaEffect
  | .TSX => tsxEffect
  | .TXS => txsEffect
  | .INX => inxEffect
  | .INY => inyEffect
  | .DEX => dexEffect
  | .DEY => deyEffect
  | _ => fun c => c

theorem registerEffect_withCycles (m : Mnemonic) (c : Cpu) (n : Nat) :
    registerEffect m { c with cycles := n } = { registerEffect m c with cycles := n } := by
  cases m <;> rfl

/-- The mnemonics that copy, count up or count down a register. -/
def registerMnemonics : List Mnemonic := [.TAX, .TAY, .TXA, .TYA, .TSX, .TXS, .INX, .INY, .DEX, .DEY]

/-- A form on registers is the register shape with the base cycles of its row, which has no extra cycle. -/
theorem exec_register (hi : i.mnemonic ∈ registerMnemonics) :
    exec i = registerOp i.row.base (registerEffect i.mnemonic) ∧ i.row.extra = .none := by
  cases i with
  | tax | tay | txa | tya | tsx | txs | inx | iny | dex | dey => exact ⟨rfl, rfl⟩
  | _ => simp [registerMnemonics, Instr.mnemonic, Instr.row] at hi

/-- A form on registers completes in every state and touches nothing but registers. -/
theorem exec_eq_setsRegisters (m : Mnemonic) (hi : i.mnemonic = m) (hm : m ∈ registerMnemonics) :
    exec i s = setsRegisters i s (registerEffect m) := by
  subst hi
  obtain ⟨hexec, hextra⟩ := exec_register hm
  rw [hexec, registerOp_eq _ _ _ (registerEffect_withCycles _), setsRegisters, charged_of_extra_none hextra]

/-! ## The statements -/

/-- Settles O7: the loads are reading forms; their encodings are read off the opcode map. -/
theorem loadsCopyTheirOperand : Obligations.LoadsCopyTheirOperand := by
  unfold Obligations.LoadsCopyTheirOperand
  exact ⟨by decide, by decide, by decide, fun _ _ ho =>
    ⟨fun hi => exec_eq_readsAndSets .LDA hi (by decide) ho, fun hi => exec_eq_readsAndSets .LDX hi (by decide) ho,
      fun hi => exec_eq_readsAndSets .LDY hi (by decide) ho⟩⟩

/-- Settles O8: the stores are the storing shape; their encodings are read off the opcode map. -/
theorem storesWriteTheirRegister : Obligations.StoresWriteTheirRegister := by
  unfold Obligations.StoresWriteTheirRegister
  exact ⟨by decide, by decide, by decide, fun _ _ ho =>
    ⟨fun hi => exec_eq_storesByte .STA hi (by decide) ho, fun hi => exec_eq_storesByte .STX hi (by decide) ho,
      fun hi => exec_eq_storesByte .STY hi (by decide) ho⟩⟩

/-- Settles O9: the transfers are forms on registers; their encodings are read off the opcode map. -/
theorem transfersCopyRegisters : Obligations.TransfersCopyRegisters := by
  unfold Obligations.TransfersCopyRegisters
  exact ⟨by decide, by decide, by decide, by decide, by decide, by decide, fun _ _ =>
    ⟨fun hi => exec_eq_setsRegisters .TAX hi (by decide), fun hi => exec_eq_setsRegisters .TAY hi (by decide),
      fun hi => exec_eq_setsRegisters .TXA hi (by decide), fun hi => exec_eq_setsRegisters .TYA hi (by decide),
      fun hi => exec_eq_setsRegisters .TSX hi (by decide), fun hi => exec_eq_setsRegisters .TXS hi (by decide)⟩⟩

end Sys2Proof.Machine
end

section
/-! PROOF. Arithmetic (41_arithmetic.md): the adder in the terms of the rules, for ADC, for SBC and for the two in
sequence; the compares; the forms that modify a byte of memory, those of 42_logic_shift.md included; and the frame of
every form that works on registers alone. -/

namespace Sys2Proof.Machine

variable {s t : State} {i : Instr}

/-! ## The adder -/

/-- The flags of a sum, in words: the carry out is the ninth bit, overflow is of the signed sum (R150). -/
theorem setSum_add8 (p a m : Byte) (c : Bool) :
    setSum p (add8 a m c) =
      setZN (setV (setC p (decide (255 < a.toNat + m.toNat + c.toNat)))
        (decide (a.toInt + m.toInt + (c.toNat : Int) < -128 ∨ 127 < a.toInt + m.toInt + (c.toNat : Int))))
        (BitVec.ofNat 8 (a.toNat + m.toNat + c.toNat)) := by
  rw [setSum, add8_v]
  rfl

theorem add8_r (a m : Byte) (c : Bool) : (add8 a m c).r = BitVec.ofNat 8 (a.toNat + m.toNat + c.toNat) := rfl

theorem toNat_add8_r (a m : Byte) (c : Bool) : (add8 a m c).r.toNat = (a.toNat + m.toNat + c.toNat) % 256 :=
  BitVec.toNat_ofNat _ 8

theorem add8_cout (a m : Byte) (c : Bool) : (add8 a m c).cout = decide (255 < a.toNat + m.toNat + c.toNat) := rfl

/-! ## The adder with the operand complemented (R152) -/

/-- The borrow a carry stands for: one when the carry is clear. -/
def borrow (c : Bool) : Int := 1 - (c.toNat : Int)

/-- A complemented byte adds what the byte and the borrow subtract, and 256. -/
theorem sum_complement (a m : Byte) (c : Bool) :
    ((a.toNat + (m ^^^ 0xFF).toNat + c.toNat : Nat) : Int) = (a.toNat : Int) - m.toNat - borrow c + 256 := by
  have hm := m.isLt
  rw [toNat_complement, borrow]
  omega

theorem add8_complement_r (a m : Byte) (c : Bool) :
    (add8 a (m ^^^ 0xFF) c).r = BitVec.ofInt 8 ((a.toNat : Int) - m.toNat - borrow c) := by
  rw [add8_r, ← BitVec.ofInt_natCast, sum_complement]
  exact BitVec.eq_of_toInt_eq (by rw [BitVec.toInt_ofInt, BitVec.toInt_ofInt]; exact Int.add_bmod_right _ 256)

theorem add8_complement_cout (a m : Byte) (c : Bool) :
    (add8 a (m ^^^ 0xFF) c).cout = decide (0 ≤ (a.toNat : Int) - m.toNat - borrow c) := by
  have h := sum_complement a m c
  rw [add8_cout, decide_eq_decide]
  omega

theorem add8_complement_v (a m : Byte) (c : Bool) :
    (add8 a (m ^^^ 0xFF) c).v =
      decide (a.toInt - m.toInt - borrow c < -128 ∨ 127 < a.toInt - m.toInt - borrow c) := by
  have h : a.toInt + (m ^^^ 0xFF).toInt + (c.toNat : Int) = a.toInt - m.toInt - borrow c := by
    rw [toInt_complement, borrow]
    omega
  rw [add8_v, h]

/-- The flags of a difference, in words: the carry is no-borrow, overflow is of the signed difference (R152). -/
theorem setSum_add8_complement (p a m : Byte) (c : Bool) :
    setSum p (add8 a (m ^^^ 0xFF) c) =
      setZN (setV (setC p (decide (0 ≤ (a.toNat : Int) - m.toNat - borrow c)))
        (decide (a.toInt - m.toInt - borrow c < -128 ∨ 127 < a.toInt - m.toInt - borrow c)))
        (BitVec.ofInt 8 ((a.toNat : Int) - m.toNat - borrow c)) := by
  rw [setSum, add8_complement_cout, add8_complement_v, add8_complement_r]

/-! ## Subtraction undoes addition (R162) -/

/-- Adding with the carry set is not adding with it clear. -/
theorem add8_r_inj_carry {a m : Byte} {c d : Bool} : (add8 a m c).r = (add8 a m d).r ↔ c = d := by
  refine ⟨fun h => ?_, fun h => h ▸ rfl⟩
  have h := congrArg BitVec.toNat h
  rw [toNat_add8_r, toNat_add8_r] at h
  cases c <;> cases d <;> simp only [Bool.toNat_false, Bool.toNat_true] at h ⊢ <;> omega

/-- Subtracting what was added, with the borrow equal to the carry added, gives back the first summand. -/
theorem add8_complement_undoes_r (a m : Byte) (c : Bool) : (add8 (add8 a m c).r (m ^^^ 0xFF) (!c)).r = a := by
  have ha := a.isLt
  have hm := m.isLt
  apply BitVec.eq_of_toNat_eq
  rw [toNat_add8_r, toNat_add8_r, toNat_complement]
  cases c <;> simp only [Bool.toNat_false, Bool.toNat_true, Bool.not_false, Bool.not_true] <;> omega

/-- It borrows exactly when the addition carried. -/
theorem add8_complement_undoes_cout (a m : Byte) (c : Bool) :
    (add8 (add8 a m c).r (m ^^^ 0xFF) (!c)).cout = !(add8 a m c).cout := by
  have ha := a.isLt
  have hm := m.isLt
  rw [add8_cout, add8_cout, toNat_add8_r, toNat_complement, ← decide_not, decide_eq_decide]
  cases c <;> simp only [Bool.toNat_false, Bool.toNat_true, Bool.not_false, Bool.not_true] <;> omega

/-- With the carry out of the addition as it is, both summand and carry come back exactly when the carries differ. -/
theorem add8_complement_restores_iff (a m : Byte) (c : Bool) :
    ((add8 (add8 a m c).r (m ^^^ 0xFF) (add8 a m c).cout).r = a ∧
      (add8 (add8 a m c).r (m ^^^ 0xFF) (add8 a m c).cout).cout = c) ↔ (add8 a m c).cout ≠ c := by
  constructor
  · rintro ⟨hr, -⟩
    have hcarry : (add8 a m c).cout = !c := add8_r_inj_carry.mp (hr.trans (add8_complement_undoes_r a m c).symm)
    rw [hcarry]
    exact Bool.not_ne_self c
  · intro h
    have hcarry : (add8 a m c).cout = !c := Bool.eq_not.mpr h
    exact ⟨by rw [hcarry, add8_complement_undoes_r],
      by rw [hcarry, add8_complement_undoes_cout, hcarry, Bool.not_not]⟩

/-! ## The reading forms -/

/-- Of the effect of a reading form only its value at the registers of before counts: the read changes `adr` alone. -/
theorem readsAndSets_congr {f g : Cpu → Cpu} (h : ∀ v, f { s.cpu with adr := v } = g { s.cpu with adr := v }) :
    readsAndSets i s f = readsAndSets i s g := by
  simp only [readsAndSets, State.mapCpu]
  rw [afterOperand_cpu, h]

/-- The flags of a compare, in words: `Z` is equality (R153 to R155). -/
theorem setCompare_eq (p x m : Byte) :
    setCompare p x m = setN (setZ (setC p (decide (m.toNat ≤ x.toNat))) (decide (x = m))) ((x - m).getLsbD 7) := by
  have hz : (x - m == 0) = decide (x = m) := by rw [Bool.eq_iff_iff, beq_iff_eq, sub_eq_zero, decide_eq_true_iff]
  rw [setCompare, setZN, hz]

/-- The register a comparing mnemonic compares (R153 to R155). -/
def comparedRegister : Mnemonic → Cpu → Byte
  | .CPX => Cpu.x
  | .CPY => Cpu.y
  | _ => Cpu.a

theorem comparedRegister_withAdr (m : Mnemonic) (c : Cpu) (v : Word) :
    comparedRegister m { c with adr := v } = comparedRegister m c := by
  cases m <;> rfl

theorem readEffect_compare {m : Mnemonic} (hm : m ∈ [.CMP, .CPX, .CPY]) (v : Byte) (c : Cpu) :
    readEffect m v c = { c with p := setCompare c.p (comparedRegister m c) v } := by
  cases m with
  | CMP | CPX | CPY => rfl
  | _ => simp at hm

/-- A compare whose operand is open completes: it sets flags by its register, which the read leaves as it was. -/
theorem exec_eq_compares (m : Mnemonic) (hi : i.mnemonic = m) (hm : m ∈ [.CMP, .CPX, .CPY])
    (ho : OperandOpen i.operand s = true) :
    exec i s = readsAndSets i s fun c =>
      { c with p := setCompare c.p (comparedRegister m s.cpu) (operandValue i.operand s) } := by
  have hr : m ∈ readingMnemonics := (by decide : [.CMP, .CPX, .CPY] ⊆ readingMnemonics) hm
  rw [exec_eq_readsAndSets m hi hr ho]
  refine readsAndSets_congr fun v => ?_
  rw [readEffect_compare hm, comparedRegister_withAdr]

@[simp] theorem flagC_setC (p : Byte) (b : Bool) : flagC (setC p b) = b := by rw [flagC, getLsbD_setC, if_pos rfl]

@[simp] theorem flagC_setSum (p : Byte) (r : Sum8) : flagC (setSum p r) = r.cout := by
  rw [flagC, setSum, getLsbD_setZN, if_neg (by decide), if_neg (by decide), getLsbD_setV, if_neg (by decide),
    getLsbD_setC, if_pos rfl]

/-- The outcome leaves a sum in A and its carry out in C. -/
def HoldsSum (r : Sum8) (t : State) : Prop := t.cpu.a = r.r ∧ flagC t.cpu.p = r.cout

theorem exec_adcImm (b : Byte) (s : State) :
    ∃ t, exec (.adcImm b) s = .next t ∧ HoldsSum (add8 s.cpu.a b (flagC s.cpu.p)) t :=
  ⟨_, exec_eq_readsAndSets .ADC rfl (by decide) rfl, rfl, flagC_setSum _ _⟩

theorem exec_sbcImm (b : Byte) (s : State) :
    ∃ t, exec (.sbcImm b) s = .next t ∧ HoldsSum (add8 s.cpu.a (b ^^^ 0xFF) (flagC s.cpu.p)) t :=
  ⟨_, exec_eq_readsAndSets .SBC rfl (by decide) rfl, rfl, flagC_setSum _ _⟩

/-! ## The forms that modify a byte of memory -/

/-- The mnemonics that read a value and write a result back (R156, R159, R174 to R177). -/
def modifyingMnemonics : List Mnemonic := [.INC, .DEC, .ASL, .LSR, .ROL, .ROR]

/-- The result and the status register a modifying mnemonic gives, from the value read and the status of before. -/
def modifyResult : Mnemonic → Byte → Byte → Byte × Byte
  | .INC => incResult
  | .DEC => decResult
  | .ASL => aslResult
  | .LSR => lsrResult
  | .ROL => rolResult
  | .ROR => rorResult
  | _ => fun m p => (m, p)

/-- A modifying form is the modifying shape with the base cycles of its row, which has no extra cycle. -/
theorem exec_modifying (hi : i.mnemonic ∈ modifyingMnemonics) :
    exec i = modifyOp i.row.base i.operand (modifyResult i.mnemonic) ∧ i.row.extra = .none ∧
      (i.operand = .acc ∨ InMemory i.operand) := by
  cases i with
  | aslAcc | lsrAcc | rolAcc | rorAcc => exact ⟨rfl, rfl, .inl rfl⟩
  | incZp0 | incAbs | incZpx | incAbx | decZp0 | decAbs | decZpx | decAbx => exact ⟨rfl, rfl, .inr rfl⟩
  | aslZp0 | aslAbs | aslZpx | aslAbx | lsrZp0 | lsrAbs | lsrZpx | lsrAbx | rolZp0 | rolAbs | rolZpx | rolAbx | rorZp0
  | rorAbs | rorZpx | rorAbx => exact ⟨rfl, rfl, .inr rfl⟩
  | _ => simp [modifyingMnemonics, Instr.mnemonic, Instr.row] at hi

/-- A modifying form in memory whose operand is open completes: one read, then one write of the result at the same
address. -/
theorem exec_eq_readsAndStores (m : Mnemonic) (hi : i.mnemonic = m) (hm : m ∈ modifyingMnemonics)
    (hacc : i.operand ≠ .acc) (ho : OperandOpen i.operand s = true) :
    exec i s = readsAndStores i s (modifyResult m (operandValue i.operand s) s.cpu.p).1
      (modifyResult m (operandValue i.operand s) s.cpu.p).2 := by
  subst hi
  obtain ⟨hexec, hextra, hmem⟩ := exec_modifying hm
  rw [hexec, modifyOp_eq _ _ _ _ (hmem.resolve_left hacc) ho, readsAndStores, charged_of_extra_none hextra]

/-- The accumulator forms are those of the shifts and rotates. -/
theorem mnemonic_of_acc (h : i.operand = .acc) : i.mnemonic ∈ [.ASL, .LSR, .ROL, .ROR] := by
  cases i with
  | aslAcc | lsrAcc | rolAcc | rorAcc => decide
  | _ => simp [Instr.operand, Instr.row] at h

/-! ## The frame of the forms on registers -/

/-- What a form on registers may do to them: of A, X, Y and SP it changes its destination, and neither PC nor `adr`. -/
structure RegisterFrame (i : Instr) (c c' : Cpu) : Prop where
  pc : c'.pc = c.pc
  adr : c'.adr = c.adr
  a : i.operand ≠ .acc → i.mnemonic ∉ [.TXA, .TYA] → c'.a = c.a
  x : i.mnemonic ∉ [.TAX, .TSX, .INX, .DEX] → c'.x = c.x
  y : i.mnemonic ∉ [.TAY, .INY, .DEY] → c'.y = c.y
  sp : i.mnemonic ≠ .TXS → c'.sp = c.sp

section

variable {c : Cpu} {v p : Byte}

theorem RegisterFrame.toA (h : i.mnemonic ∈ [.TXA, .TYA]) : RegisterFrame i c { c with a := v, p := p } :=
  ⟨rfl, rfl, fun _ hn => absurd h hn, fun _ => rfl, fun _ => rfl, fun _ => rfl⟩

theorem RegisterFrame.toAcc (h : i.operand = .acc) : RegisterFrame i c { c with a := v, p := p } :=
  ⟨rfl, rfl, fun hn => absurd h hn, fun _ => rfl, fun _ => rfl, fun _ => rfl⟩

theorem RegisterFrame.toX (h : i.mnemonic ∈ [.TAX, .TSX, .INX, .DEX]) :
    RegisterFrame i c { c with x := v, p := p } :=
  ⟨rfl, rfl, fun _ _ => rfl, fun hn => absurd h hn, fun _ => rfl, fun _ => rfl⟩

theorem RegisterFrame.toY (h : i.mnemonic ∈ [.TAY, .INY, .DEY]) : RegisterFrame i c { c with y := v, p := p } :=
  ⟨rfl, rfl, fun _ _ => rfl, fun _ => rfl, fun hn => absurd h hn, fun _ => rfl⟩

theorem RegisterFrame.toSp (h : i.mnemonic = .TXS) : RegisterFrame i c { c with sp := v } :=
  ⟨rfl, rfl, fun _ _ => rfl, fun _ => rfl, fun _ => rfl, fun hn => absurd h hn⟩

theorem RegisterFrame.toP : RegisterFrame i c { c with p := p } :=
  ⟨rfl, rfl, fun _ _ => rfl, fun _ => rfl, fun _ => rfl, fun _ => rfl⟩

end

/-- The instruction touches registers only, and keeps to its mnemonic's destination. -/
def IsRegisterForm (i : Instr) : Prop :=
  ∃ base f, exec i = registerOp base f ∧ ∀ c, RegisterFrame i c (f c)

/-- The accumulator form of a shift or rotate touches A and the flags only (R95, R178). -/
theorem isRegisterForm_of_acc (h : i.operand = .acc) : IsRegisterForm i := by
  have hmod : i.mnemonic ∈ modifyingMnemonics :=
    (by decide : [.ASL, .LSR, .ROL, .ROR] ⊆ modifyingMnemonics) (mnemonic_of_acc h)
  obtain ⟨hexec, -, -⟩ := exec_modifying hmod
  rw [h] at hexec
  exact ⟨_, fun c => { c with a := (modifyResult i.mnemonic c.a c.p).1, p := (modifyResult i.mnemonic c.a c.p).2 },
    hexec, fun _ => .toAcc h⟩

/-- The rows of R137 to R142, R157, R158, R160, R161 and R214 to R221. -/
theorem isRegisterForm_of_mnemonic
    (h : i.mnemonic ∈ [.TAX, .TAY, .TXA, .TYA, .TSX, .TXS, .INX, .INY, .DEX, .DEY, .CLC, .SEC, .CLI, .SEI, .CLD, .SED,
      .CLV, .NOP]) : IsRegisterForm i := by
  cases i with
  | txa | tya => exact ⟨_, _, rfl, fun _ => .toA (by decide)⟩
  | tax | tsx | inx | dex => exact ⟨_, _, rfl, fun _ => .toX (by decide)⟩
  | tay | iny | dey => exact ⟨_, _, rfl, fun _ => .toY (by decide)⟩
  | txs => exact ⟨_, _, rfl, fun _ => .toSp rfl⟩
  | clc | sec | cli | sei | cld | sed | clv | nop => exact ⟨_, _, rfl, fun _ => .toP⟩
  | _ => simp [Instr.mnemonic, Instr.row] at h

/-! ## The statements -/

/-- Settles O10: ADC is a reading form whose effect is the adder's; its encodings are read off the opcode map. -/
theorem adcAddsWithCarry : Obligations.AdcAddsWithCarry := by
  unfold Obligations.AdcAddsWithCarry
  refine ⟨by decide, fun i s ho hi => ?_⟩
  rw [exec_eq_readsAndSets .ADC hi (by decide) ho]
  refine readsAndSets_congr fun v => ?_
  rw [readEffect, adcEffect, setSum_add8]
  rfl

/-- Settles O11: SBC is a reading form whose effect is the adder's with the operand complemented. -/
theorem sbcSubtractsWithBorrow : Obligations.SbcSubtractsWithBorrow := by
  unfold Obligations.SbcSubtractsWithBorrow
  refine ⟨by decide, fun i s ho hi => ?_⟩
  rw [exec_eq_readsAndSets .SBC hi (by decide) ho]
  refine readsAndSets_congr fun v => ?_
  rw [readEffect, sbcEffect, setSum_add8_complement, add8_complement_r]
  rfl

/-- Settles O12: both laws are laws of the adder, since the immediate forms leave its sum and its carry out. -/
theorem sbcUndoesAdc : Obligations.SbcUndoesAdc := by
  unfold Obligations.SbcUndoesAdc
  intro s b
  obtain ⟨t, ht, hta, htc⟩ := exec_adcImm b s
  obtain ⟨u, hu, hua, huc⟩ := exec_sbcImm b (t.setP (setC t.cpu.p (!flagC s.cpu.p)))
  obtain ⟨v, hv, hva, hvc⟩ := exec_sbcImm b t
  rw [State.setP_cpu_p, flagC_setC, State.setP_cpu_a, hta] at hua huc
  rw [hta, htc] at hva hvc
  refine ⟨t, u, v, ht, hu, hv, ?_, ?_, ?_⟩
  · rw [hua, add8_complement_undoes_r]
  · rw [huc, htc, add8_complement_undoes_cout]
  · rw [hva, hvc, htc, add8_complement_restores_iff]

/-- Settles O13: the compares are reading forms that set flags only; their encodings are read off the opcode map. -/
theorem comparesSetFlagsOnly : Obligations.ComparesSetFlagsOnly := by
  unfold Obligations.ComparesSetFlagsOnly
  simp only [← setCompare_eq]
  exact ⟨by decide, by decide, by decide, fun _ _ ho =>
    ⟨fun hi => exec_eq_compares .CMP hi (by decide) ho,
      fun hi => exec_eq_compares .CPX hi (by decide) ho,
      fun hi => exec_eq_compares .CPY hi (by decide) ho⟩⟩

/-- Settles O14: INC and DEC are modifying forms in memory, the others forms on registers. -/
theorem incrementsAndDecrementsWrap : Obligations.IncrementsAndDecrementsWrap := by
  unfold Obligations.IncrementsAndDecrementsWrap
  exact ⟨by decide, by decide, by decide, by decide, by decide, by decide, fun i s =>
    ⟨fun ho =>
      ⟨fun hi => exec_eq_readsAndStores .INC hi (by decide) (mt mnemonic_of_acc (hi ▸ by decide)) ho,
        fun hi => exec_eq_readsAndStores .DEC hi (by decide) (mt mnemonic_of_acc (hi ▸ by decide)) ho⟩,
      fun hi => exec_eq_setsRegisters .INX hi (by decide), fun hi => exec_eq_setsRegisters .INY hi (by decide),
      fun hi => exec_eq_setsRegisters .DEX hi (by decide), fun hi => exec_eq_setsRegisters .DEY hi (by decide)⟩⟩

/-- Settles O24: each of the forms touches registers only, and of those its destination. -/
theorem registerFormsLeaveTheRestAlone : Obligations.RegisterFormsLeaveTheRestAlone := by
  unfold Obligations.RegisterFormsLeaveTheRestAlone
  intro i s t hi ht
  obtain ⟨base, f, hexec, hf⟩ : IsRegisterForm i := hi.elim isRegisterForm_of_acc isRegisterForm_of_mnemonic
  obtain rfl : (s.setCycles base).mapCpu f = t := by rwa [hexec, registerOp, Host.Outcome.next.injEq] at ht
  obtain ⟨hpc, hadr, ha, hx, hy, hsp⟩ := hf (s.setCycles base).cpu
  exact ⟨rfl, rfl, rfl, rfl, fun a => by rw [readByte_mapCpu, readByte_setCycles], hpc, hadr, ha, hx, hy, hsp⟩

end Sys2Proof.Machine
end

section
/-! PROOF. Logic, bit test, shifts and rotates (42_logic_shift.md): the logic mnemonics combine A with the operand, BIT
tests it; a shift or rotate is a byte written as a bit string, and goes to A or to memory as its operand says. -/

namespace Sys2Proof.Machine

variable {s : State} {i : Instr}

/-! ## The logic mnemonics and BIT -/

/-- A reading form that combines A with its operand, completes in one read; the read leaves the A it combines. -/
theorem exec_eq_combines (m : Mnemonic) {op : Byte → Byte → Byte} (hi : i.mnemonic = m) (hm : m ∈ readingMnemonics)
    (hop : ∀ v c, readEffect m v c = { c with a := op c.a v, p := setZN c.p (op c.a v) })
    (ho : OperandOpen i.operand s = true) :
    exec i s = readsAndSets i s fun c =>
      { c with a := op s.cpu.a (operandValue i.operand s), p := setZN c.p (op s.cpu.a (operandValue i.operand s)) } := by
  rw [exec_eq_readsAndSets m hi hm ho]
  exact readsAndSets_congr fun _ => hop _ _

/-- The flags of BIT, in words: `Z` is that no bit is common, `N` and `V` are the operand's own (R173). -/
theorem setBitTest_eq (p a m : Byte) :
    setBitTest p a m = setV (setN (setZ p (decide (a &&& m = 0))) (m.getLsbD 7)) (m.getLsbD 6) := by
  rw [setBitTest, beq_eq_decide]

/-! ## A shift or rotate as a bit string (R174 to R177) -/

/-- The carry at the right end of a byte, as ROL brings it in. -/
theorem setWidth_ofBool (c : Bool) : (BitVec.ofBool c).setWidth 8 = 0#7 ++ BitVec.ofBool c := by
  cases c <;> decide

/-- The carry at the left end of a byte, as ROR brings it in. -/
theorem setWidth_ofBool_shiftLeft (c : Bool) : (BitVec.ofBool c).setWidth 8 <<< 7 = BitVec.ofBool c ++ 0#7 := by
  cases c <;> decide

theorem byte_shiftLeft_one (m : Byte) : m <<< 1 = m.extractLsb' 0 7 ++ 0#1 :=
  BitVec.shiftLeft_eq_concat_of_lt (by decide)

theorem byte_shiftRight_one (m : Byte) : m >>> 1 = 0#1 ++ m.extractLsb' 1 7 :=
  BitVec.ushiftRight_eq_extractLsb'_of_lt (by decide)

theorem shiftAsl_eq (m : Byte) (c : Bool) : shiftAsl m c = ⟨m.extractLsb' 0 7 ++ 0#1, m.getLsbD 7⟩ := by
  rw [shiftAsl, byte_shiftLeft_one]

theorem shiftLsr_eq (m : Byte) (c : Bool) : shiftLsr m c = ⟨0#1 ++ m.extractLsb' 1 7, m.getLsbD 0⟩ := by
  rw [shiftLsr, byte_shiftRight_one]

theorem shiftRol_eq (m : Byte) (c : Bool) :
    shiftRol m c = ⟨m.extractLsb' 0 7 ++ BitVec.ofBool c, m.getLsbD 7⟩ := by
  rw [shiftRol, byte_shiftLeft_one, setWidth_ofBool, BitVec.or_append, BitVec.or_zero, BitVec.zero_or]

theorem shiftRor_eq (m : Byte) (c : Bool) :
    shiftRor m c = ⟨BitVec.ofBool c ++ m.extractLsb' 1 7, m.getLsbD 0⟩ := by
  rw [shiftRor, byte_shiftRight_one, setWidth_ofBool_shiftLeft, BitVec.or_append, BitVec.or_zero, BitVec.zero_or]

/-! ## Where the byte of a shift or rotate is (R178) -/

/-- The mnemonics that shift or rotate a byte. -/
def shiftMnemonics : List Mnemonic := [.ASL, .LSR, .ROL, .ROR]

/-- The shift or rotate of a mnemonic, from the byte and the carry of before. -/
def shiftOf : Mnemonic → Byte → Bool → Shifted
  | .ASL => shiftAsl
  | .LSR => shiftLsr
  | .ROL => shiftRol
  | .ROR => shiftRor
  | _ => fun m c => ⟨m, c⟩

theorem modifyResult_shift {m : Mnemonic} (hm : m ∈ shiftMnemonics) (v p : Byte) :
    modifyResult m v p = ((shiftOf m v (flagC p)).r, setShifted p (shiftOf m v (flagC p))) := by
  cases m with
  | ASL | LSR | ROL | ROR => rfl
  | _ => simp [shiftMnemonics] at hm

/-- The accumulator form of a modifying mnemonic completes in every state: result to A, status to P. -/
theorem exec_eq_setsRegisters_of_acc (hm : i.mnemonic ∈ modifyingMnemonics) (hacc : i.operand = .acc) :
    exec i s = setsRegisters i s fun c =>
      { c with a := (modifyResult i.mnemonic s.cpu.a s.cpu.p).1, p := (modifyResult i.mnemonic s.cpu.a s.cpu.p).2 } := by
  obtain ⟨hexec, hextra, -⟩ := exec_modifying hm
  rw [hexec, hacc, modifyOp_acc, setsRegisters, charged_of_extra_none hextra]
  rfl

/-- A shift or rotate whose operand is open completes: in mode ACC its byte is A and the result goes to A, else the byte
is read and the result written at one address. -/
theorem exec_eq_shifts (m : Mnemonic) {moved : Shifted} (hi : i.mnemonic = m) (hm : m ∈ shiftMnemonics)
    (hmoved : shiftOf m (operandValue i.operand s) (flagC s.cpu.p) = moved) (ho : OperandOpen i.operand s = true) :
    (i.operand = .acc →
      exec i s = setsRegisters i s fun c => { c with a := moved.r, p := setShifted c.p moved }) ∧
    (i.operand ≠ .acc → exec i s = readsAndStores i s moved.r (setShifted s.cpu.p moved)) := by
  subst hi
  have hmod : i.mnemonic ∈ modifyingMnemonics := (by decide : shiftMnemonics ⊆ modifyingMnemonics) hm
  have hresult : modifyResult i.mnemonic (operandValue i.operand s) s.cpu.p = (moved.r, setShifted s.cpu.p moved) := by
    rw [modifyResult_shift hm, hmoved]
  constructor
  · intro hacc
    rw [hacc, operandValue] at hresult
    rw [exec_eq_setsRegisters_of_acc hmod hacc, hresult]
    rfl
  · intro hacc
    rw [exec_eq_readsAndStores _ rfl hmod hacc ho, hresult]

/-! ## The statements -/

/-- Settles O15: the four are reading forms, three of which combine A with the operand; their encodings are read off the
opcode map. -/
theorem logicAndBitTestUseTheOperand : Obligations.LogicAndBitTestUseTheOperand := by
  unfold Obligations.LogicAndBitTestUseTheOperand
  simp only [← setBitTest_eq]
  exact ⟨by decide, by decide, by decide, by decide, fun _ _ ho =>
    ⟨fun hi => exec_eq_combines .AND hi (by decide) (fun _ _ => rfl) ho,
      fun hi => exec_eq_combines .ORA hi (by decide) (fun _ _ => rfl) ho,
      fun hi => exec_eq_combines .EOR hi (by decide) (fun _ _ => rfl) ho,
      fun hi => exec_eq_readsAndSets .BIT hi (by decide) ho⟩⟩

/-- Settles O16: the four are modifying forms in A or in memory, and each moves its byte as the bit string says. -/
theorem shiftsAndRotatesMoveOneBit : Obligations.ShiftsAndRotatesMoveOneBit := by
  unfold Obligations.ShiftsAndRotatesMoveOneBit
  exact ⟨by decide, by decide, by decide, by decide, fun _ s ho =>
    ⟨fun hi => exec_eq_shifts .ASL hi (by decide) (shiftAsl_eq _ (flagC s.cpu.p)) ho,
      fun hi => exec_eq_shifts .LSR hi (by decide) (shiftLsr_eq _ (flagC s.cpu.p)) ho,
      fun hi => exec_eq_shifts .ROL hi (by decide) (shiftRol_eq _ _) ho,
      fun hi => exec_eq_shifts .ROR hi (by decide) (shiftRor_eq _ _) ho⟩⟩

end Sys2Proof.Machine
end

section
/-! PROOF. Control flow (43_control_flow.md): a jump or a branch sets PC, `adr` and `cycles`, after two pointer reads if
it is an indirect JMP; JSR and RTS are stack forms. -/

namespace Sys2Proof.Machine

variable {s t : State} {i : Instr} {a : Word}

/-! ## What a jump sets -/

/-- The machine after a jump: PC, the address scratch and the cost are set, and nothing else. -/
def jumped (pc adr : Word) (n : Nat) (s : State) : State := ((s.setAdr adr).setPc pc).setCycles n

@[simp] theorem readByte_jumped (a pc adr : Word) (n : Nat) (s : State) :
    readByte a (jumped pc adr n s) = readByte a s := by simp [jumped]

theorem jumped_cpu (pc adr : Word) (n : Nat) (s : State) :
    (jumped pc adr n s).cpu = { s.cpu with pc := pc, adr := adr, cycles := n } := rfl

/-! ## JMP (R190) -/

theorem exec_jmpAbs (a : Word) (s : State) : exec (.jmpAbs a) s = .next (jumped a a 3 s) := rfl

/-- The pointer's low byte is read before its high byte, whose read may see the effect of the first one on a device. -/
theorem exec_jmpInd (ho : OperandOpen (.ind a) s = true) :
    exec (.jmpInd a) s =
      .next (jumped (effAddr (.ind a) s) (effAddr (.ind a) s) 5 (afterRead (nextInPage a) (afterRead a s))) := by
  simp only [OperandOpen, Bool.and_eq_true, Bool.not_eq_true'] at ho
  obtain ⟨hlow, hhigh⟩ := ho
  rw [exec, execJmpInd, resolve_ind (s.setCycles 5) a hlow hhigh, andThen_next]
  simp only [afterRead_setCycles, readByte_setCycles]
  rfl

/-- An indirect JMP completes only if neither of its pointer bytes is in the window (R352). -/
theorem operandOpen_of_exec_jmpInd (h : exec (.jmpInd a) s = .next t) : OperandOpen (.ind a) s = true := by
  obtain ⟨_, hres, -⟩ := andThen_eq_next.mp h
  obtain ⟨_, hptr, -⟩ := andThen_eq_next.mp hres
  obtain ⟨lo, hlo, hrest⟩ := andThen_eq_next.mp hptr
  obtain ⟨_, hhi, -⟩ := andThen_eq_next.mp hrest
  obtain ⟨hlow, rfl⟩ := busRead_eq_next _ _ hlo
  obtain ⟨hhigh, -⟩ := busRead_eq_next _ _ hhi
  rw [afterRead_cart] at hhigh
  rw [State.setCycles_cart] at hlow hhigh
  simp [OperandOpen, hlow, hhigh]

/-! ## The branches (R193) -/

/-- The offset as a signed number. -/
theorem sext8_eq_ofInt (b : Byte) : sext8 b = BitVec.ofInt 16 b.toInt := rfl

/-- Two addresses are in different pages, in words. -/
theorem pageDiffers_eq_decide (a b : Word) : pageDiffers a b = decide (a.toNat / 256 ≠ b.toNat / 256) := by
  rw [pageDiffers_eq, Bool.eq_iff_iff, bne_iff_ne, decide_eq_true_iff, ne_eq, ne_eq, ← BitVec.toNat_inj,
    toNat_hiByte, toNat_hiByte]

/-- Both outcomes of a branch, by the condition its test decides. -/
theorem branchOp_outcome (test : Byte → Bool) {condition : Prop} (off : Byte) (s : State)
    (hc : test s.cpu.p = true ↔ condition) :
    let target := s.cpu.pc + BitVec.ofInt 16 off.toInt
    (condition → branchOp test off s =
      .next ((s.setPc target).setCycles (if target.toNat / 256 = s.cpu.pc.toNat / 256 then 3 else 4))) ∧
    (¬ condition → branchOp test off s = .next (s.setCycles 2)) := by
  refine ⟨fun h => ?_, fun h => ?_⟩
  · rw [branchOp_taken _ _ _ (hc.mpr h), pageDiffers_eq_decide, sext8_eq_ofInt]
    simp only [ne_eq, decide_not, Bool.not_eq_true', decide_eq_false_iff_not, ite_not]
  · exact branchOp_untaken _ _ _ (Bool.eq_false_iff.mpr (mt hc.mp h))

/-- A branch is a jump to its target, or to the next instruction, that keeps the address scratch. -/
theorem branchOp_eq_jumped (test : Byte → Bool) (off : Byte) (s : State) :
    ∃ pc n, branchOp test off s = .next (jumped pc s.cpu.adr n s) := by
  cases hc : test s.cpu.p with
  | true => exact ⟨_, _, branchOp_taken _ _ _ hc⟩
  | false => exact ⟨s.cpu.pc, _, branchOp_untaken _ _ _ hc⟩

/-- The mnemonics of the branches. -/
def branchMnemonics : List Mnemonic := [.BCC, .BCS, .BEQ, .BNE, .BMI, .BPL, .BVC, .BVS]

/-- What a branch asks of the status register (R194 to R201). -/
def branchTest : Mnemonic → Byte → Bool
  | .BCC => fun p => !flagC p
  | .BCS => flagC
  | .BEQ => flagZ
  | .BNE => fun p => !flagZ p
  | .BMI => flagN
  | .BPL => fun p => !flagN p
  | .BVC => fun p => !flagV p
  | .BVS => flagV
  | _ => fun _ => false

/-- Every branch is the common operation with the test of its mnemonic. -/
theorem exec_branch (hi : i.mnemonic ∈ branchMnemonics) : ∃ off, exec i = branchOp (branchTest i.mnemonic) off := by
  cases i with
  | bcc off | bcs off | beq off | bne off | bmi off | bpl off | bvc off | bvs off => exact ⟨off, rfl⟩
  | _ => simp [branchMnemonics, Instr.mnemonic, Instr.row] at hi

/-! ## The frame -/

theorem SameStorage.trans {u v : State} (h : SameStorage s u) (h' : SameStorage u v) : SameStorage s v :=
  ⟨h'.cpu.trans h.cpu, h'.cart.trans h.cart, h'.params.trans h.params, h'.ram.trans h.ram, h'.cartRam.trans h.cartRam,
    h'.oam.trans h.oam, h'.nt.trans h.nt, h'.pal.trans h.pal, h'.framebuffer.trans h.framebuffer⟩

/-- The pointer of the operand, if it has one, stands at no device (R104). -/
def PlainPointer (o : Operand) : Prop :=
  ∀ a, o = .ind a → IsDevice a = false ∧ IsDevice (nextInPage a) = false

/-- JMP and the branches are a jump after the reads of a pointer, which have an effect on a device only. -/
theorem exec_jump_eq_next (hi : i.mnemonic ∈ .JMP :: branchMnemonics) (ht : exec i s = .next t) :
    ∃ u pc adr n, t = jumped pc adr n u ∧ SameStorage s u ∧ (PlainPointer i.operand → u = s) := by
  rcases List.mem_cons.mp hi with hjmp | hbranch
  · cases i with
    | jmpAbs a => exact ⟨s, a, a, 3, (Host.Outcome.next.inj ht).symm, sameStorage_refl s, fun _ => rfl⟩
    | jmpInd a =>
      rw [exec_jmpInd (operandOpen_of_exec_jmpInd ht), Host.Outcome.next.injEq] at ht
      refine ⟨_, _, _, _, ht.symm, (sameStorage_afterRead a s).trans (sameStorage_afterRead _ _), fun hp => ?_⟩
      obtain ⟨hlow, hhigh⟩ := hp a rfl
      rw [afterRead_plain _ _ hhigh, afterRead_plain _ _ hlow]
    | _ => simp [Instr.mnemonic, Instr.row] at hjmp
  · obtain ⟨off, hexec⟩ := exec_branch hbranch
    obtain ⟨pc, n, h⟩ := branchOp_eq_jumped (branchTest i.mnemonic) off s
    rw [hexec, h, Host.Outcome.next.injEq] at ht
    exact ⟨s, pc, _, n, ht.symm, sameStorage_refl s, fun _ => rfl⟩

/-! ## The statements -/

/-- Settles O17: the jumps set PC, JSR and RTS are stack forms; their encodings are read off the opcode map. -/
theorem jumpsCallsAndReturns : Obligations.JumpsCallsAndReturns := by
  unfold Obligations.JumpsCallsAndReturns
  refine ⟨by decide, by decide, by decide, exec_jmpAbs, fun a s ho => ?_, exec_jsr, exec_rts⟩
  rw [← nextInPage_eq]
  exact exec_jmpInd ho

/-- Settles O18: each branch is the common operation with the test of one flag; the encodings are read off the opcode
map. -/
theorem branchesGoByOneFlag : Obligations.BranchesGoByOneFlag := by
  unfold Obligations.BranchesGoByOneFlag
  have hclear (b : Bool) : (!b) = true ↔ b = false := by rw [Bool.not_eq_true']
  exact ⟨by decide, by decide, by decide, by decide, by decide, by decide, by decide, by decide, fun off s =>
    ⟨branchOp_outcome (branchTest .BCC) off s (hclear _), branchOp_outcome (branchTest .BCS) off s .rfl,
      branchOp_outcome (branchTest .BEQ) off s .rfl, branchOp_outcome (branchTest .BNE) off s (hclear _),
      branchOp_outcome (branchTest .BMI) off s .rfl, branchOp_outcome (branchTest .BPL) off s (hclear _),
      branchOp_outcome (branchTest .BVC) off s (hclear _), branchOp_outcome (branchTest .BVS) off s .rfl⟩⟩

/-- Settles O28: a jump or a branch sets its three registers after reads that leave storage alone, and devices too
unless a pointer byte stands at one. -/
theorem jumpsAndBranchesChangeOnlyPc : Obligations.JumpsAndBranchesChangeOnlyPc := by
  unfold Obligations.JumpsAndBranchesChangeOnlyPc
  intro i s t hi ht
  obtain ⟨u, pc, adr, n, rfl, hs, hplain⟩ := exec_jump_eq_next hi ht
  have hsame (hp : PlainPointer i.operand) : (jumped pc adr n u).bus = s.bus ∧ (jumped pc adr n u).ppu = s.ppu ∧
      ∀ a, readByte a (jumped pc adr n u) = readByte a s := by
    rw [hplain hp]
    exact ⟨rfl, rfl, fun a => readByte_jumped a pc adr n s⟩
  refine ⟨?_, hs.cart, hs.params, fun a ha => ?_, hs.ram, hs.cartRam, hs.oam, hs.nt, hs.pal, hs.framebuffer,
    fun hmode => hsame fun a ha => ?_, fun a ha hlow hhigh => hsame fun b hb => ?_⟩
  · rw [jumped_cpu, hs.cpu]
  · rw [readByte_jumped, hs.readByte_eq ha]
  · exact absurd (congrArg Operand.mode ha) hmode
  · obtain rfl : a = b := Operand.ind.inj (ha.symm.trans hb)
    exact ⟨hlow, hhigh⟩

end Sys2Proof.Machine
end

section
/-! PROOF. The stack, flag and system instructions (44_stack_flag_system.md): the status register in the terms of the
rules, the flag instructions, and RTI as the inverse of the entry of an exception. The outcomes of the stack forms are
those of their frame. -/

namespace Sys2Proof.Machine

variable {s : State} {p : Byte}

/-! ## The masks of the flags (R214 to R220, R25) -/

theorem setC_false (p : Byte) : setC p false = p &&& 0xFE := rfl
theorem setC_true (p : Byte) : setC p true = p ||| 0x01 := rfl
theorem setI_false (p : Byte) : setI p false = p &&& 0xFB := rfl
theorem setI_true (p : Byte) : setI p true = p ||| 0x04 := rfl
theorem setD_false (p : Byte) : setD p false = p &&& 0xF7 := rfl
theorem setD_true (p : Byte) : setD p true = p ||| 0x08 := rfl
theorem setB_false (p : Byte) : setB p false = p &&& 0xEF := rfl
theorem setV_false (p : Byte) : setV p false = p &&& 0xBF := rfl

/-! ## The status register on the stack (R24, R25) -/

/-- The pulled status, as a bit string: the six flags, with `U` 1 and `B` 0 between them (R213, R223). -/
theorem pulledStatus_eq (b : Byte) :
    pulledStatus b = (b.extractLsb' 6 2 ++ 2#2 ++ b.extractLsb' 0 4 : BitVec 8) := by
  refine BitVec.eq_of_getLsbD_eq fun j hj => ?_
  rw [getLsbD_pulledStatus, BitVec.getLsbD_append, BitVec.getLsbD_append, BitVec.getLsbD_extractLsb',
    BitVec.getLsbD_extractLsb']
  interval_cases j <;> rfl

/-- A status register whose `U` is 1 and `B` is 0 comes back from any byte with the same six flags. -/
theorem pulledStatus_eq_of_flags {b : Byte} (hp : LiveStatus p)
    (h : ∀ j, j ≠ 4 → j ≠ 5 → b.getLsbD j = p.getLsbD j) : pulledStatus b = p := by
  obtain ⟨hU, hB⟩ := hp
  refine BitVec.eq_of_getLsbD_eq fun j _ => ?_
  rw [getLsbD_pulledStatus]
  split_ifs with h4 h5
  · rw [h4, hB]
  · rw [h5, hU]
  · exact h j h4 h5

theorem pulledStatus_pushedByInstruction (hp : LiveStatus p) : pulledStatus (pushedByInstruction p) = p :=
  pulledStatus_eq_of_flags hp fun j h4 h5 => by simp [getLsbD_pushedByInstruction, h4, h5]

theorem pulledStatus_pushedByInterrupt (hp : LiveStatus p) : pulledStatus (pushedByInterrupt p) = p :=
  pulledStatus_eq_of_flags hp fun j h4 h5 => by simp [getLsbD_pushedByInterrupt, h4, h5]

/-! ## The flag instructions -/

/-- A form on registers that writes the status register alone. -/
theorem registerOp_setP (base : Nat) (f : Byte → Byte) (s : State) :
    registerOp base (fun c => { c with p := f c.p }) s = .next ((s.setP (f s.cpu.p)).setCycles base) :=
  registerOp_eq s base _ fun _ _ => rfl

/-! ## RTI after an entry -/

@[simp] theorem stackByte_setP (k : Nat) (p : Byte) (s : State) : stackByte k (s.setP p) = stackByte k s := rfl
@[simp] theorem stackByte_setPc (k : Nat) (a : Word) (s : State) : stackByte k (s.setPc a) = stackByte k s := rfl
@[simp] theorem stackByte_setCycles (k n : Nat) (s : State) : stackByte k (s.setCycles n) = stackByte k s := rfl

/-- Three bytes pushed come back last first. -/
theorem stackBytes_pushedAll_three (a b c : Byte) (s : State) :
    stackByte 0 (pushedAll [a, b, c] s) = c ∧ stackByte 1 (pushedAll [a, b, c] s) = b ∧
      stackByte 2 (pushedAll [a, b, c] s) = a := by
  simpa [List.range_succ] using stackBytes_pushedAll (vs := [a, b, c]) s (by simp)

/-- RTI after the entry of an exception undoes the pushes of the return address and of the status, whatever status,
handler address and cost the entry left. -/
theorem exec_rti_of_entry {status : Byte} (hstatus : pulledStatus status = s.cpu.p) (ret : Word) (p : Byte)
    (handler : Word) (n : Nat) :
    ∃ u, exec .rti ((((pushedAll [hiByte ret, loByte ret, status] s).setP p).setPc handler).setCycles n) = .next u ∧
      u.cpu = { s.cpu with pc := ret, cycles := 6 } := by
  obtain ⟨h0, h1, h2⟩ := stackBytes_pushedAll_three (hiByte ret) (loByte ret) status s
  exact ⟨_, exec_rti _, by simp [h0, h1, h2, hstatus, pushedAll_cpu]⟩

/-! ## The statements -/

/-- Settles O19: the four are stack forms of one byte; their encodings are read off the opcode map. -/
theorem stackInstructionsPushAndPull : Obligations.StackInstructionsPushAndPull := by
  unfold Obligations.StackInstructionsPushAndPull
  refine ⟨by decide, by decide, by decide, by decide, fun s => ⟨exec_pha s, exec_php s, exec_pla s, ?_⟩⟩
  rw [← pulledStatus_eq]
  exact exec_plp s

/-- Settles O20: each is a form on registers that masks the status register; the encodings are read off the opcode
map. -/
theorem flagInstructionsWriteOneBit : Obligations.FlagInstructionsWriteOneBit := by
  unfold Obligations.FlagInstructionsWriteOneBit
  simp only [← setC_false, ← setC_true, ← setI_false, ← setI_true, ← setD_false, ← setD_true, ← setV_false]
  exact ⟨by decide, by decide, by decide, by decide, by decide, by decide, by decide, by decide, fun s =>
    ⟨registerOp_setP 2 (setC · false) s, registerOp_setP 2 (setC · true) s, registerOp_setP 2 (setI · false) s,
      registerOp_setP 2 (setI · true) s, registerOp_setP 2 (setD · false) s, registerOp_setP 2 (setD · true) s,
      registerOp_setP 2 (setV · false) s, registerOp_setP 2 id s⟩⟩

/-- Settles O21: BRK is a stack form of three bytes; its encoding is read off the opcode map. -/
theorem brkTakesTheInterrupt : Obligations.BrkTakesTheInterrupt := by
  unfold Obligations.BrkTakesTheInterrupt
  simp only [← setI_true, ← setB_false]
  exact ⟨by decide, exec_brk⟩

/-- Settles O22: RTI pulls three bytes, and each of the three entries pushes the address and a status that RTI turns
back into P; its encoding is read off the opcode map. -/
theorem rtiReturnsFromTheInterrupt : Obligations.RtiReturnsFromTheInterrupt := by
  unfold Obligations.RtiReturnsFromTheInterrupt
  simp only [← pulledStatus_eq]
  refine ⟨by decide, exec_rti, fun s hinv => ?_⟩
  have hp := Cpu.inv_iff.mp hinv
  have hinterrupt := exec_rti_of_entry (pulledStatus_pushedByInterrupt hp) s.cpu.pc (setI s.cpu.p true)
  refine ⟨?_, ?_, ?_⟩
  · obtain ⟨u, hu⟩ := hinterrupt (vectorWord 0xFFFA s) (s.cpu.cycles + s.params.cycNmi)
    exact ⟨_, u, cpuNmi_eq s, hu⟩
  · cases hI : flagI s.cpu.p with
    | false =>
      obtain ⟨u, hu⟩ := hinterrupt (vectorWord 0xFFFE s) (s.cpu.cycles + s.params.cycIrq)
      exact ⟨_, u, cpuIrq_eq s hI, fun _ => hu⟩
    | true => exact ⟨s, s, cpuIrq_masked s hI, fun h => absurd h (by decide)⟩
  · obtain ⟨u, hu⟩ := exec_rti_of_entry (pulledStatus_pushedByInstruction hp) (s.cpu.pc + 1)
      (setB (setI s.cpu.p true) false) (vectorWord vectorIrq s) 7
    exact ⟨_, u, exec_brk s, hu⟩

end Sys2Proof.Machine
end

section
/-! PROOF. The bus (50_bus.md): its decode of reads and writes range by range (R231 to R237), and the controller port's
shift-out (R241, R242). -/

namespace Sys2Proof.Machine

variable {s : State} {a : Word} {d : Byte}

/-! ## The ranges of a read (R231, R235, R236) -/

/-- The PPU register of an address: its three low bits (R234). -/
theorem setWidth_three_eq_ofNat (a : Word) : a.setWidth 3 = BitVec.ofNat 3 (a.toNat % 8) :=
  BitVec.eq_of_toNat_eq (by simp)

/-- Below the window, what is neither RAM nor a device reads 0 (R235). -/
theorem busRead_unmapped (h1 : 0x4000 ≤ a.toNat) (h2 : a.toNat ≤ 0x5FFF) (hctrl : a ≠ 0x4016) (s : State) :
    busRead a s = .next (0, s) := by
  have hram : ¬ a.toNat ≤ 0x1FFF := by omega
  have hppu : ¬ a.toNat ≤ 0x3FFF := by omega
  have hcart : ¬ (0x6000 ≤ a.toNat ∧ a.toNat ≤ 0x7FFF) := by omega
  rw [busRead, mapCpuRead_low _ _ _ (by omega)]
  simp only [hram, hppu, hctrl, hcart, if_false]

theorem busRead_cartRam (h1 : 0x6000 ≤ a.toNat) (h2 : a.toNat ≤ 0x7FFF) (hm : s.cart.mapper = .nrom) :
    busRead a s = .next (s.bus.cartRam.read (a.toNat % 0x2000), s) := by
  have hb := blocked_nrom s.cart a hm
  have hd : IsDevice a = false := by
    simp only [IsDevice, Bool.or_eq_false_iff, Bool.and_eq_false_iff, decide_eq_false_iff_not, beq_eq_false_iff_ne]
    refine ⟨⟨by omega, ?_⟩, ?_⟩ <;> bv_omega
  rw [busRead_open _ _ hb, afterRead_plain _ _ hd, readByte_window h1 (Nat.lt_succ_of_le h2),
    if_pos (mapperId_eq_zero.mpr hm)]

theorem blocked_of_window (h1 : 0x6000 ≤ a.toNat) (h2 : a.toNat ≤ 0x7FFF) (hm : s.cart.mapper ≠ .nrom) :
    Blocked s.cart a = true :=
  (blocked_iff _ _).mpr ⟨hm, h1, Nat.lt_succ_of_le h2⟩

/-- Settles O31: each range of the decode is one lemma about `busRead`, and the side-effect-free read answers the byte
of that read. -/
theorem busReadsDecodeByAddress : Obligations.BusReadsDecodeByAddress := by
  unfold Obligations.BusReadsDecodeByAddress
  intro a s
  rw [← setWidth_three_eq_ofNat]
  refine ⟨busRead_prg a s, busRead_ram a s, busRead_ppu a s, fun h => ?_, fun h1 h2 hne => ?_,
    fun h1 h2 => ⟨busRead_cartRam h1 h2, fun hm => busRead_blocked _ _ (blocked_of_window h1 h2 hm)⟩, fun hb => ?_⟩
  · obtain rfl : a = 0x4016 := BitVec.eq_of_toNat_eq h
    exact busRead_ctrl s
  · exact busRead_unmapped h1 h2 (fun ha => hne (congrArg BitVec.toNat ha)) s
  · rw [busPeek, busRead_open _ _ hb]

/-! ## The ranges of a write (R232, R341, R347) -/

theorem busWrite_cartRam (h1 : 0x6000 ≤ a.toNat) (h2 : a.toNat ≤ 0x7FFF) (hm : s.cart.mapper = .nrom) :
    busWrite a d s = .next (s.mapBus fun b => { b with cartRam := b.cartRam.write (a.toNat % 0x2000) d }) := by
  have hb := blocked_nrom s.cart a hm
  rcases busWrite_cases a s d with ⟨h, -⟩ | ⟨h, -⟩ | ⟨-, h, -⟩ | ⟨rfl, -⟩ | ⟨rfl, -⟩ | ⟨-, -, -, h⟩ | ⟨h, -⟩ |
    ⟨-, -, -, h, -⟩
  · exact absurd (hb.symm.trans h) (by decide)
  · omega
  · omega
  · exact absurd h1 (by decide)
  · exact absurd h1 (by decide)
  · exact h
  · omega
  · omega

/-- A byte written to neither RAM nor a device below the window, or from 0x8000 up with NROM, is dropped (R232, R341). -/
theorem busWrite_dropped (hr : 0x4000 ≤ a.toNat) (hdma : a ≠ 0x4014) (hctrl : a ≠ 0x4016)
    (h : a.toNat < 0x6000 ∨ 0x8000 ≤ a.toNat ∧ s.cart.mapper = .nrom) : busWrite a d s = .next s := by
  have hb : Blocked s.cart a = false := h.elim (blocked_of_low _ _) fun h => blocked_of_high _ _ h.1
  rcases busWrite_cases a s d with ⟨h', -⟩ | ⟨h', -⟩ | ⟨-, h', -⟩ | ⟨h', -⟩ | ⟨h', -⟩ | ⟨h', h'', -⟩ | ⟨h8, r, hm, -⟩ |
    ⟨-, -, -, -, h'⟩
  · exact absurd (hb.symm.trans h') (by decide)
  · omega
  · omega
  · exact absurd h' hdma
  · exact absurd h' hctrl
  · omega
  · obtain ⟨-, hn⟩ := h.resolve_left (by omega)
    rw [hm] at hn
    cases hn
  · exact h'

/-- The MMC1 takes a byte from 0x8000 up into its serial port (R347). -/
theorem busWrite_mmc1 {r : Mmc1} (h : 0x8000 ≤ a.toNat) (hm : s.cart.mapper = .mmc1 r) :
    busWrite a d s = .next { s with cart := { s.cart with mapper := .mmc1 (mmc1Serial r a d) } } := by
  have h6 : ¬ a.toNat < 0x6000 := by omega
  have h8 : ¬ a.toNat < 0x8000 := by omega
  simp only [busWrite, cartCpuWrite, hm, h6, h8, if_false]

/-- Settles O32: each range of the decode is one lemma about `busWrite`. -/
theorem busWritesDecodeByAddress : Obligations.BusWritesDecodeByAddress := by
  unfold Obligations.BusWritesDecodeByAddress
  intro a v s
  rw [← setWidth_three_eq_ofNat]
  have hne {k : Word} (h : a.toNat ≠ k.toNat) : a ≠ k := fun ha => h (congrArg BitVec.toNat ha)
  refine ⟨busWrite_ram a s v, busWrite_ppu a s v, fun h => ?_, fun h => ?_,
    fun h1 h2 hdma hctrl => busWrite_dropped h1 (hne hdma) (hne hctrl) (.inl (Nat.lt_succ_of_le h2)),
    fun h1 h2 => ⟨busWrite_cartRam h1 h2, fun hm => busWrite_blocked _ _ _ (blocked_of_window h1 h2 hm)⟩,
    fun h => ⟨fun hm => ?_, fun r hm => busWrite_mmc1 h hm⟩⟩
  · obtain rfl : a = 0x4014 := BitVec.eq_of_toNat_eq h
    exact busWrite_dma s v
  · obtain rfl : a = 0x4016 := BitVec.eq_of_toNat_eq h
    exact busWrite_ctrl s v
  · have hdma := Nat.ne_of_gt (Nat.lt_of_lt_of_le (by decide : (0x4014 : Word).toNat < 0x8000) h)
    have hctrl := Nat.ne_of_gt (Nat.lt_of_lt_of_le (by decide : (0x4016 : Word).toNat < 0x8000) h)
    exact busWrite_dropped (by omega) (hne hdma) (hne hctrl) (.inr ⟨h, hm⟩)

/-! ## The controller port -/

theorem ctrlWrite_set (b : Bus) (h : d.getLsbD 0 = true) :
    ctrlWrite d b = { b with ctrlStrobe := true, ctrlShift := b.buttons } := if_pos h

theorem ctrlWrite_clear (b : Bus) (h : d.getLsbD 0 = false) : ctrlWrite d b = { b with ctrlStrobe := false } :=
  if_neg (by rw [h]; decide)

/-- The low bit of a byte, as the byte 0 or 1 that a read of the port returns. -/
theorem setWidth_one_setWidth_eq (b : Byte) : (b.setWidth 1).setWidth 8 = if b.getLsbD 0 = true then 1 else 0 := by
  rw [BitVec.setWidth_one]
  cases b.getLsbD 0 <;> rfl

/-- While the strobe is set a read latches the buttons again (R241). -/
theorem ctrlRead_strobed {b : Bus} (h : b.ctrlStrobe = true) :
    ctrlRead b = (if b.buttons.getLsbD 0 = true then 1 else 0, { b with ctrlShift := b.buttons }) := by
  simp only [ctrlRead, h, if_true, setWidth_one_setWidth_eq]

/-- Else a read shifts the register by one bit, a 1 coming in at the top (R241). -/
theorem ctrlRead_shifting {b : Bus} (h : b.ctrlStrobe = false) :
    ctrlRead b =
      (if b.ctrlShift.getLsbD 0 = true then 1 else 0, { b with ctrlShift := (b.ctrlShift >>> 1) ||| 0x80 }) := by
  simp only [ctrlRead, h, Bool.false_eq_true, if_false, setWidth_one_setWidth_eq]

theorem readTimes_ctrl_succ (n : Nat) (s : State) :
    readTimes (n + 1) 0x4016 s =
      (ctrlRead s.bus).1 :: readTimes n 0x4016 (s.mapBus fun b => (ctrlRead b).2) := by
  rw [readTimes, readByte, afterRead, busRead_ctrl]
  rfl

theorem readTimes_ctrl_strobed (n : Nat) (h : s.bus.ctrlStrobe = true) :
    readTimes n 0x4016 s = List.replicate n (if s.bus.buttons.getLsbD 0 then 1 else 0) := by
  induction n generalizing s with
  | zero => rfl
  | succ n ih =>
    have hbus := congrArg Prod.snd (ctrlRead_strobed h)
    rw [readTimes_ctrl_succ, ih (by rwa [State.mapBus_bus, hbus]), ctrlRead_strobed h, State.mapBus_bus, hbus,
      List.replicate_succ]

/-- After a read the bits of the register stand one place lower, and ones follow them. -/
theorem shiftedOut_getLsbD_iff (b : Byte) (k : Nat) :
    8 ≤ k ∨ ((b >>> 1) ||| 0x80).getLsbD k = true ↔ 8 ≤ k + 1 ∨ b.getLsbD (k + 1) = true := by
  have htop : (0x80 : Byte).getLsbD k = decide (7 = k) := BitVec.getLsbD_twoPow 7 k
  have hk : 8 ≤ k ∨ 7 = k ↔ 8 ≤ k + 1 := by omega
  rw [BitVec.getLsbD_or, BitVec.getLsbD_ushiftRight, htop, Bool.or_eq_true, decide_eq_true_eq, Nat.add_comm 1 k, ← hk]
  tauto

theorem readTimes_ctrl_shifting (n : Nat) (h : s.bus.ctrlStrobe = false) :
    readTimes n 0x4016 s =
      (List.range n).map fun k => if 8 ≤ k ∨ s.bus.ctrlShift.getLsbD k = true then 1 else 0 := by
  induction n generalizing s with
  | zero => rfl
  | succ n ih =>
    have hbus := congrArg Prod.snd (ctrlRead_shifting h)
    rw [readTimes_ctrl_succ, ih (by rwa [State.mapBus_bus, hbus]), ctrlRead_shifting h, State.mapBus_bus, hbus,
      List.range_succ_eq_map, List.map_cons, List.map_map]
    have hfirst : ¬ 8 ≤ 0 := by decide
    simp only [Function.comp_def, Nat.succ_eq_add_one, shiftedOut_getLsbD_iff, hfirst, false_or]

/-- Settles O34, by induction on the number of reads, with the strobe set and with the strobe clear. -/
theorem controllerShiftsOutEightButtons : Obligations.ControllerShiftsOutEightButtons := by
  unfold Obligations.ControllerShiftsOutEightButtons
  intro s on off n hon hoff
  have hset := ctrlWrite_set s.bus hon
  have hclear := ctrlWrite_clear (ctrlWrite on s.bus) hoff
  simp only [writeAll, busWrite_ctrl, andThen_next, Host.Outcome.next.injEq, exists_eq_left']
  refine ⟨?_, ?_⟩
  · rw [readTimes_ctrl_strobed n (by rw [State.mapBus_bus, hset]), State.mapBus_bus, hset]
  · rw [readTimes_ctrl_shifting n (by rw [State.mapBus_bus, State.mapBus_bus, hclear]), State.mapBus_bus,
      State.mapBus_bus, hclear, hset]

end Sys2Proof.Machine
end

section
/-! PROOF. The two clocks (R245, R247, R281): the CPU changes registers and what bus accesses change, so a predicate that
these keep is kept by every instruction and by the CPU's clock; the master counter and the PPU's position are kept, and
the three dots move the position. -/

namespace Sys2Proof.Machine

variable {s t : State} {P : State → Prop}

/-! ## Predicates that the CPU keeps -/

/-- The predicate is kept by every change of the CPU's registers and by every bus access. -/
structure CpuKeeps (P : State → Prop) : Prop where
  registers : ∀ {s} c, P s → P { s with cpu := c }
  read : ∀ {s} a, P s → P (afterRead a s)
  write : ∀ {s} a d, P s → P (afterWrite a d s)

namespace CpuKeeps

section

variable (hP : CpuKeeps P)

include hP

theorem busRead_ensures (a : Word) (h : P s) : Ensures (busRead a s) fun r => P r.2 := by
  intro r hr
  obtain ⟨-, rfl⟩ := busRead_eq_next _ _ hr
  exact hP.read a h

theorem busWrite_ensures (a : Word) (d : Byte) (h : P s) : Ensures (busWrite a d s) P := by
  intro t ht
  obtain ⟨-, rfl⟩ := busWrite_eq_next _ _ _ ht
  exact hP.write a d h

/-! ### The shapes of instruction -/

theorem readPointer_ensures (pl ph : Word) (h : P s) : Ensures (readPointer pl ph s) fun r => P r.2 :=
  ensures_andThen (hP.busRead_ensures pl h) fun _ h1 =>
    ensures_andThen (hP.busRead_ensures ph h1) fun _ h2 => ensures_next.mpr h2

theorem resolve_ensures (o : Operand) (h : P s) : Ensures (resolve o s) fun r => P r.2 := by
  cases o with
  | ind w =>
    exact ensures_andThen (hP.readPointer_ensures _ _ h) fun _ h1 => ensures_next.mpr (hP.registers _ h1)
  | _ =>
    rw [resolve_eq _ _ (by simp [Operand.mode]), ensures_next]
    exact hP.registers _ h

theorem readOperand_ensures (o : Operand) (h : P s) : Ensures (readOperand o s) fun r => P r.2 := by
  unfold readOperand
  split
  · exact ensures_next.mpr h
  · exact ensures_next.mpr h
  · exact hP.busRead_ensures _ h

theorem writeOperand_ensures (o : Operand) (v : Byte) (h : P s) : Ensures (writeOperand o v s) P := by
  unfold writeOperand
  split
  · exact ensures_next.mpr (hP.registers _ h)
  · exact hP.busWrite_ensures _ v h

theorem readOp_ensures {base : Nat} {plus : Bool} {o : Operand} {f : Byte → Cpu → Cpu} (h : P s) :
    Ensures (readOp base plus o f s) P :=
  ensures_andThen (hP.resolve_ensures o (hP.registers _ h)) fun _ h1 =>
    ensures_andThen (hP.readOperand_ensures o h1) fun _ h2 =>
      ensures_next.mpr (hP.registers _ (hP.registers _ h2))

theorem storeOp_ensures {base : Nat} {o : Operand} {src : Cpu → Byte} (h : P s) : Ensures (storeOp base o src s) P :=
  ensures_andThen (hP.resolve_ensures o (hP.registers _ h)) fun _ h1 => hP.busWrite_ensures _ _ h1

theorem modifyOp_ensures {base : Nat} {o : Operand} {f : Byte → Byte → Byte × Byte} (h : P s) :
    Ensures (modifyOp base o f s) P :=
  ensures_andThen (hP.resolve_ensures o (hP.registers _ h)) fun _ h1 =>
    ensures_andThen (hP.readOperand_ensures o h1) fun _ h2 =>
      ensures_andThen (hP.writeOperand_ensures o _ h2) fun _ h3 => ensures_next.mpr (hP.registers _ h3)

theorem registerOp_ensures {base : Nat} {f : Cpu → Cpu} (h : P s) : Ensures (registerOp base f s) P :=
  ensures_next.mpr (hP.registers _ (hP.registers _ h))

theorem branchOp_ensures {test : Byte → Bool} {off : Byte} (h : P s) : Ensures (branchOp test off s) P := by
  obtain ⟨pc, n, e⟩ := branchOp_eq_jumped test off s
  rw [e, ensures_next]
  exact hP.registers _ (hP.registers _ (hP.registers _ h))

/-- A jump loads PC with the address it resolves. -/
theorem jump_ensures (n : Nat) (o : Operand) (h : P s) :
    Ensures (andThen (resolve o (s.setCycles n)) fun r => .next (r.2.setPc r.2.cpu.adr)) P :=
  ensures_andThen (hP.resolve_ensures o (hP.registers _ h)) fun _ h1 => ensures_next.mpr (hP.registers _ h1)

/-- A push is a bus write. -/
theorem keeps_pushed (v : Byte) (h : P s) : P (pushed v s) := by
  have hpush : Ensures (push v s) P :=
    ensures_andThen (hP.busWrite_ensures _ v h) fun _ h1 => ensures_next.mpr (hP.registers _ h1)
  rwa [push_eq, ensures_next] at hpush

theorem keeps_pushedAll (vs : List Byte) (h : P s) : P (pushedAll vs s) := by
  induction vs using List.reverseRecOn with
  | nil => exact h
  | append_singleton vs v ih =>
    rw [pushedAll_concat]
    exact hP.keeps_pushed v ih

theorem stackForm_ensures {i : Instr} {pushes pulls : Nat} (hi : IsStackForm i pushes pulls s) (h : P s) :
    Ensures (exec i s) P := by
  obtain ⟨vs, f, hexec, -, -⟩ := hi
  rw [hexec, ensures_next]
  exact hP.registers _ (hP.keeps_pushedAll vs h)

/-! ### Every instruction, and the CPU's clock -/

theorem exec_ensures (i : Instr) (h : P s) : Ensures (exec i s) P := by
  unfold exec
  cases i with
  | staIzx | staZp0 | staAbs | staIzy | staZpx | staAby | staAbx | stxZp0 | stxAbs | stxZpy | styZp0 | styAbs | styZpx =>
    exact hP.storeOp_ensures h
  | incZp0 | incAbs | incZpx | incAbx | decZp0 | decAbs | decZpx | decAbx | aslZp0 | aslAcc | aslAbs | aslZpx | aslAbx
  | lsrZp0 | lsrAcc | lsrAbs | lsrZpx | lsrAbx | rolZp0 | rolAcc | rolAbs | rolZpx | rolAbx | rorZp0 | rorAcc | rorAbs
  | rorZpx | rorAbx =>
    exact hP.modifyOp_ensures h
  | tax | tay | txa | tya | tsx | txs | inx | iny | dex | dey | clc | sec | cli | sei | cld | sed | clv | nop =>
    exact hP.registerOp_ensures h
  | bcc | bcs | beq | bne | bmi | bpl | bvc | bvs => exact hP.branchOp_ensures h
  | jmpAbs | jmpInd => exact hP.jump_ensures _ _ h
  | jsr w => exact hP.stackForm_ensures (isStackForm_jsr w s) h
  | rts => exact hP.stackForm_ensures (isStackForm_rts s) h
  | pha => exact hP.stackForm_ensures (isStackForm_pha s) h
  | php => exact hP.stackForm_ensures (isStackForm_php s) h
  | pla => exact hP.stackForm_ensures (isStackForm_pla s) h
  | plp => exact hP.stackForm_ensures (isStackForm_plp s) h
  | brk => exact hP.stackForm_ensures (isStackForm_brk s) h
  | rti => exact hP.stackForm_ensures (isStackForm_rti s) h
  | _ => exact hP.readOp_ensures h

theorem fetchByte_ensures (h : P s) : Ensures (fetchByte s) fun r => P r.2 :=
  ensures_andThen (hP.busRead_ensures _ h) fun _ h1 => ensures_next.mpr (hP.registers _ h1)

theorem fetchBytes_ensures (n : Nat) (h : P s) : Ensures (fetchBytes n s) fun r => P r.2 := by
  induction n generalizing s with
  | zero => exact ensures_next.mpr h
  | succ n ih =>
    exact ensures_andThen (hP.fetchByte_ensures h) fun _ h1 =>
      ensures_andThen (ih h1) fun _ h2 => ensures_next.mpr h2

theorem fetchInstr_ensures (h : P s) : Ensures (fetchInstr s) fun r => P r.2 := by
  refine ensures_andThen (hP.fetchByte_ensures h) fun op h1 => ?_
  split
  · exact ensures_fault
  · refine ensures_andThen (hP.fetchBytes_ensures _ h1) fun bs h2 => ?_
    split
    · exact ensures_next.mpr h2
    · exact ensures_fault

theorem cpuClock_ensures (h : P s) : Ensures (cpuClock s) P := by
  by_cases hc : s.cpu.cycles = 0
  · rw [cpuClock_running _ hc]
    refine ensures_andThen (ensures_andThen (hP.fetchInstr_ensures h) fun r h1 => hP.exec_ensures r.1 h1) fun _ h2 => ?_
    exact ensures_next.mpr (hP.registers _ h2)
  · rw [cpuClock_owing _ hc, ensures_next]
    exact hP.registers _ h

end

end CpuKeeps

/-! ## The master counter and the position in the frame -/

/-- The two states agree in the master counter and in the PPU's position in the frame. -/
def SameTime (s t : State) : Prop :=
  t.bus.master = s.bus.master ∧ t.ppu.scanline = s.ppu.scanline ∧ t.ppu.cycle = s.ppu.cycle

theorem SameTime.trans {u : State} (h : SameTime s t) (h' : SameTime t u) : SameTime s u :=
  ⟨h'.1.trans h.1, h'.2.1.trans h.2.1, h'.2.2.trans h.2.2⟩

theorem sameTime_afterRead (a : Word) (s : State) : SameTime s (afterRead a s) := by
  rw [afterRead_frame]
  exact ⟨rfl, rfl, rfl⟩

/-- No write to a register moves the position (R261). -/
theorem ppuRegWrite_position (r : BitVec 3) (d : Byte) (p : Ppu) (c : Cart) :
    (ppuRegWrite r d p c).1.scanline = p.scanline ∧ (ppuRegWrite r d p c).1.cycle = p.cycle := by
  unfold ppuRegWrite
  split
  · exact ⟨rfl, rfl⟩
  · exact ⟨rfl, rfl⟩
  · exact ⟨rfl, rfl⟩
  · exact ⟨rfl, rfl⟩
  · unfold writeScroll
    split <;> exact ⟨rfl, rfl⟩
  · unfold writeAddr
    split <;> exact ⟨rfl, rfl⟩
  · simp only [writeData, stepV]
    rw [ppuWrite_frame]
    exact ⟨rfl, rfl⟩
  · exact ⟨rfl, rfl⟩

theorem sameTime_afterWrite (a : Word) (d : Byte) (s : State) : SameTime s (afterWrite a d s) := by
  obtain ⟨-, -, -, -, -, -, -, -, hmaster⟩ := afterWrite_fixed a s d
  refine ⟨hmaster, ?_⟩
  unfold afterWrite
  rcases busWrite_cases a s d with ⟨-, e⟩ | ⟨-, e⟩ | ⟨-, -, e⟩ | ⟨-, e⟩ | ⟨-, e⟩ | ⟨-, -, -, e⟩ | ⟨-, r, -, e⟩ |
    ⟨-, -, -, -, e⟩ <;> rw [e]
  · exact ⟨rfl, rfl⟩
  · exact ⟨rfl, rfl⟩
  · exact ppuRegWrite_position _ d s.ppu s.cart
  all_goals exact ⟨rfl, rfl⟩

/-- Nothing the CPU does moves the two clocks. -/
theorem cpuKeeps_sameTime (s : State) : CpuKeeps (SameTime s) where
  registers _ h := ⟨h.1, h.2.1, h.2.2⟩
  read a h := h.trans (sameTime_afterRead a _)
  write a d h := h.trans (sameTime_afterWrite a d _)

/-! ## The dots -/

/-- The position is one of the 262 * 341 of the frame (R280). -/
def Ppu.InFrame (p : Ppu) : Prop := p.scanline ≤ 261 ∧ p.cycle ≤ 340

theorem dotNumber_advance {p : Ppu} (h : p.InFrame) : dotNumber (advance p) = (dotNumber p + 1) % 89342 := by
  obtain ⟨hy, hx⟩ := h
  unfold dotNumber
  rcases advance_cases p with ⟨ex, ax, ay⟩ | ⟨nx, ax, ay⟩ <;> rw [ax, ay]
  · rw [ex]
    split_ifs with ey
    · rw [ey]
    · rw [Nat.mod_eq_of_lt (by omega)]
      omega
  · rw [Nat.mod_eq_of_lt (by omega), Nat.add_assoc]

/-- After `n` dots from `s` the machine is at `t`: `n` dots further along the frame, and at the same count. -/
structure DotsOn (n : Nat) (s t : State) : Prop where
  inFrame : t.ppu.InFrame
  dot : dotNumber t.ppu = (dotNumber s.ppu + n) % 89342
  master : t.bus.master = s.bus.master

theorem ppuDot_ensures_dotsOn (h : s.ppu.InFrame) : Ensures (ppuDot s) (DotsOn 1 s) := by
  intro t ht
  obtain ⟨t', ht', -, -, -, hbus, hppu⟩ := ppuDot_next s
  obtain rfl : t' = t := Host.Outcome.next.inj (ht'.symm.trans ht)
  obtain ⟨hy, hx, -⟩ := ppuTick_position s.cart s.ppu
  obtain ⟨hscan, hcyc⟩ := h
  refine ⟨?_, ?_, ?_⟩
  · rw [hppu, Ppu.InFrame, hy, hx]
    exact advance_scanline_cycle_le hscan hcyc
  · rw [← dotNumber_advance ⟨hscan, hcyc⟩, hppu, dotNumber, hy, hx, dotNumber]
  · rw [hbus]

theorem DotsOn.trans {m n : Nat} {u : State} (h : DotsOn m s t) (h' : DotsOn n t u) : DotsOn (m + n) s u :=
  ⟨h'.inFrame, by rw [h'.dot, h.dot, Nat.mod_add_mod, Nat.add_assoc], h'.master.trans h.master⟩

theorem threeDots_ensures_dotsOn (h : s.ppu.InFrame) : Ensures (threeDots s) (DotsOn 3 s) :=
  ensures_andThen (ppuDot_ensures_dotsOn h) fun _ h1 =>
    ensures_andThen (fun _ ht => h1.trans (ppuDot_ensures_dotsOn h1.inFrame _ ht)) fun _ h2 _ ht =>
      h2.trans (ppuDot_ensures_dotsOn h2.inFrame _ ht)

/-- Settles O44: the three dots move the position, the CPU's clock moves neither, and the count is the step's last
action. -/
theorem everyStepIsThreeDotsAndOneCount : Obligations.EveryStepIsThreeDotsAndOneCount := by
  unfold Obligations.EveryStepIsThreeDotsAndOneCount
  intro s t hy hx ht
  obtain ⟨u, hu, ht⟩ := andThen_eq_next.mp ht
  obtain ⟨w, hw, ht⟩ := andThen_eq_next.mp ht
  have hdots := threeDots_ensures_dotsOn ⟨hy, hx⟩ u hu
  obtain ⟨hmaster, hscan, hcyc⟩ := (cpuKeeps_sameTime u).cpuClock_ensures ⟨rfl, rfl, rfl⟩ w hw
  obtain rfl := Host.Outcome.next.inj ht
  refine ⟨?_, ?_⟩
  · rw [State.mapBus_bus, hmaster, hdots.master]
  · rw [State.mapBus_ppu, dotNumber, hscan, hcyc]
    exact hdots.dot

end Sys2Proof.Machine
end

section
/-! PROOF. Bit fields of `v` and `t` (R9, R273): a field assignment as a bit string, and what it leaves of the other
fields; bit strings as numbers. -/

namespace Sys2Proof

variable {m k n lo lo' len : Nat}

/-- An assignment to a field in the middle, as a bit string: the bits above, the field, the bits below. -/
theorem putField_eq_append (x : BitVec (m + k + lo)) (f : BitVec k) :
    putField x lo f = x.extractLsb' (lo + k) m ++ f ++ x.extractLsb' 0 lo := by
  apply BitVec.eq_of_getLsbD_eq
  intro i hi
  rw [getLsbD_putField, BitVec.getLsbD_append, BitVec.getLsbD_append, BitVec.getLsbD_extractLsb',
    BitVec.getLsbD_extractLsb']
  by_cases hlow : i < lo
  · rw [if_neg (by omega), if_pos hlow, Nat.zero_add, decide_eq_true hlow, Bool.true_and]
  · by_cases hmid : i - lo < k
    · rw [if_pos (by omega), if_neg hlow, if_pos hmid]
    · have hhigh : i - lo - k < m := by omega
      have hpos : lo + k + (i - lo - k) = i := by omega
      rw [if_neg (by omega), if_neg hlow, if_neg hmid, decide_eq_true hhigh, Bool.true_and, hpos]

/-- An assignment to the lowest field, as a bit string. -/
theorem putField_zero_eq_append (x : BitVec (m + k)) (f : BitVec k) : putField x 0 f = x.extractLsb' k m ++ f := by
  apply BitVec.eq_of_getLsbD_eq
  intro i hi
  rw [getLsbD_putField, BitVec.getLsbD_append, BitVec.getLsbD_extractLsb']
  by_cases hlow : i < k
  · rw [if_pos (by omega), if_pos hlow, Nat.sub_zero]
  · have hhigh : i - k < m := by omega
    have hpos : k + (i - k) = i := by omega
    rw [if_neg (by omega), if_neg hlow, decide_eq_true hhigh, Bool.true_and, hpos]

/-- A field reads back what was assigned to it. -/
theorem extractLsb'_putField_same (x : BitVec n) (f : BitVec k) (h : lo + k ≤ n) :
    (putField x lo f).extractLsb' lo k = f := by
  apply BitVec.eq_of_getLsbD_eq
  intro i hi
  rw [BitVec.getLsbD_extractLsb', getLsbD_putField, if_pos (by omega), decide_eq_true hi, Bool.true_and,
    Nat.add_sub_cancel_left]

/-- An assignment to a field leaves every field disjoint from it. -/
theorem extractLsb'_putField_other (x : BitVec n) (f : BitVec k) (h : lo' + len ≤ lo ∨ lo + k ≤ lo') :
    (putField x lo f).extractLsb' lo' len = x.extractLsb' lo' len := by
  apply BitVec.eq_of_getLsbD_eq
  intro i hi
  rw [BitVec.getLsbD_extractLsb', getLsbD_putField, if_neg (by omega), BitVec.getLsbD_extractLsb']

/-- An assignment to a field leaves the bits outside it. -/
theorem getLsbD_putField_other (x : BitVec n) (f : BitVec k) {j : Nat} (h : j < lo ∨ lo + k ≤ j) :
    (putField x lo f).getLsbD j = x.getLsbD j := by
  rw [getLsbD_putField, if_neg (by omega)]

/-- An assignment to a bit leaves every field it does not lie in. -/
theorem extractLsb'_putBit_other {i : Nat} (x : BitVec n) (b : Bool) (h : i < lo ∨ lo + len ≤ i) :
    (putBit x i b).extractLsb' lo len = x.extractLsb' lo len := by
  apply BitVec.eq_of_getLsbD_eq
  intro j hj
  rw [BitVec.getLsbD_extractLsb', getLsbD_putBit, if_neg (by omega), BitVec.getLsbD_extractLsb']

/-- A bit string of two parts as a number. -/
theorem toNat_append_eq (x : BitVec m) (y : BitVec k) : (x ++ y).toNat = x.toNat * 2 ^ k + y.toNat := by
  rw [BitVec.toNat_append, Nat.shiftLeft_eq, Nat.mul_comm, ← Nat.two_pow_add_eq_or_of_lt y.isLt]

/-- One bit as a number. -/
theorem getLsbD_toNat (x : BitVec n) (i : Nat) : (x.getLsbD i).toNat = x.toNat / 2 ^ i % 2 :=
  Nat.toNat_testBit x.toNat i

/-- An assignment to the highest bit, as a bit string. -/
theorem putBit_top_eq_append (x : BitVec (1 + n)) (b : Bool) : putBit x n b = BitVec.ofBool b ++ x.extractLsb' 0 n := by
  apply BitVec.eq_of_getLsbD_eq
  intro i hi
  rw [getLsbD_putBit, BitVec.getLsbD_append, BitVec.getLsbD_extractLsb', BitVec.getLsbD_ofBool]
  by_cases hlow : i < n
  · rw [if_neg (by omega), if_pos hlow, Nat.zero_add, decide_eq_true hlow, Bool.true_and]
  · obtain rfl : i = n := by omega
    rw [if_pos ⟨rfl, hi⟩, if_neg hlow, Nat.sub_self, decide_eq_true rfl, Bool.true_and]

/-- A field with an assignment to its upper part, as a bit string. -/
theorem extractLsb'_putField_upper (x : BitVec n) (f : BitVec k) (h : lo' + len + k ≤ n) :
    (putField x (lo' + len) f).extractLsb' lo' (k + len) = f ++ x.extractLsb' lo' len := by
  rw [← BitVec.extractLsb'_append_extractLsb'_eq_extractLsb' rfl, extractLsb'_putField_same x f h,
    extractLsb'_putField_other x f (.inl (Nat.le_refl _))]

end Sys2Proof
end

section
/-! PROOF. The PPU's registers on the bus (R261 to R272): each write lands in the fields its rule names, and each read
answers and acts once. -/

namespace Sys2Proof.Machine

variable {a : Word} {d : Byte} {s : State} {c : Cart} {p : Ppu}

/-! ## The registers -/

/-- `v` steps by 1 or 32 in 15 bits (R271, R272). -/
theorem stepV_eq (p : Ppu) :
    stepV p = { p with v := BitVec.ofNat 15 (p.v.toNat + if p.control.getLsbD 2 then 32 else 1) } := by
  rw [stepV, Ppu.increment, BitVec.ofNat_add, BitVec.ofNat_toNat, BitVec.setWidth_eq]
  split <;> rfl

theorem setWidth_fourteen_eq (v : Scroll) : v.setWidth 14 = v.extractLsb' 0 14 :=
  BitVec.setWidth_eq_extractLsb' (by decide)

/-- CONTROL's low bits are the nametable select of `t` (R262). -/
theorem writeControl_eq (d : Byte) (p : Ppu) :
    writeControl d p =
      { p with
        control := d
        t := (p.t.extractLsb' 12 3 ++ d.extractLsb' 0 2 ++ p.t.extractLsb' 0 10 : BitVec 15) } := by
  have ht := putField_eq_append (m := 3) (k := 2) (lo := 10) p.t (d.extractLsb' 0 2)
  rw [writeControl, ht]

theorem writeScroll_first (d : Byte) (h : p.w = false) :
    writeScroll d p =
      { p with
        fineX := d.extractLsb' 0 3
        t := (p.t.extractLsb' 5 10 ++ d.extractLsb' 3 5 : BitVec 15)
        w := true } := by
  have ht := putField_zero_eq_append (m := 10) (k := 5) p.t (d.extractLsb' 3 5)
  rw [writeScroll, if_pos h, ht]

theorem writeScroll_second (d : Byte) (h : p.w = true) :
    writeScroll d p =
      { p with
        t := (d.extractLsb' 0 3 ++ p.t.extractLsb' 10 2 ++ d.extractLsb' 3 5 ++ p.t.extractLsb' 0 5 : BitVec 15)
        w := false } := by
  have ht := putField_eq_append (m := 5) (k := 5) (lo := 5) (putField p.t 12 (d.extractLsb' 0 3)) (d.extractLsb' 3 5)
  have hhigh := extractLsb'_putField_upper (lo' := 10) (len := 2) p.t (d.extractLsb' 0 3) (by decide)
  have hlow : (putField p.t 12 (d.extractLsb' 0 3)).extractLsb' 0 5 = p.t.extractLsb' 0 5 :=
    extractLsb'_putField_other _ _ (by decide)
  rw [writeScroll, if_neg (by rw [h]; decide), ht, hhigh, hlow]

theorem writeAddr_first (d : Byte) (h : p.w = false) :
    writeAddr d p =
      { p with t := (0#1 ++ d.extractLsb' 0 6 ++ p.t.extractLsb' 0 8 : BitVec 15), w := true } := by
  have ht := putBit_top_eq_append (n := 14) (putField p.t 8 (d.extractLsb' 0 6)) false
  have hlow := extractLsb'_putField_upper (lo' := 0) (len := 8) p.t (d.extractLsb' 0 6) (by decide)
  rw [writeAddr, if_pos h, ht, hlow, BitVec.append_assoc]
  rfl

theorem writeAddr_second (d : Byte) (h : p.w = true) :
    writeAddr d p =
      { p with
        t := (p.t.extractLsb' 8 7 ++ d : BitVec 15)
        v := (p.t.extractLsb' 8 7 ++ d : BitVec 15)
        w := false } := by
  have ht := putField_zero_eq_append (m := 7) (k := 8) p.t d
  rw [writeAddr, if_neg (by rw [h]; decide), ht]

/-- A write to the PPU's address space changes neither `v` nor CONTROL, by which `v` steps (R271). -/
theorem writeData_eq (d : Byte) (p : Ppu) (c : Cart) :
    writeData d p c =
      ({ (ppuWrite c p (p.v.extractLsb' 0 14) d).1 with
          v := BitVec.ofNat 15 (p.v.toNat + if p.control.getLsbD 2 then 32 else 1) },
        (ppuWrite c p (p.v.extractLsb' 0 14) d).2) := by
  rw [writeData, setWidth_fourteen_eq, stepV_eq, ppuWrite_frame]

theorem readData_eq (p : Ppu) (c : Cart) :
    readData p c =
      (if p.v.toNat % 0x4000 < 0x3F00 then p.dataBuffer else ppuRead c p (p.v.extractLsb' 0 14),
        { p with
          dataBuffer := ppuRead c p (p.v.extractLsb' 0 14)
          v := BitVec.ofNat 15 (p.v.toNat + if p.control.getLsbD 2 then 32 else 1) }) := by
  have haddr : (p.v.extractLsb' 0 14).toNat = p.v.toNat % 0x4000 := BitVec.extractLsb'_toNat 0 14 p.v
  rw [readData, setWidth_fourteen_eq, haddr, stepV_eq]
  by_cases h : p.v.toNat % 0x4000 < 0x3F00
  · rw [if_neg (by omega), if_pos h]
  · rw [if_pos (by omega), if_neg h]

theorem statusByte_eq (p : Ppu) :
    statusByte p = BitVec.ofBool p.vblank ++ BitVec.ofBool p.sprite0 ++ BitVec.ofBool p.overflow ++ 0#5 := by
  rw [statusByte]
  cases p.vblank <;> cases p.sprite0 <;> cases p.overflow <;> decide

/-! ## The statements -/

/-- The number of the register at an address selects the register's arm (R261). -/
theorem ppuRegister_toNat (a : Word) : (a.setWidth 3).toNat = a.toNat % 8 := BitVec.toNat_setWidth 3 a

/-- Settles O45: the write on the bus is the register's, and each register's write is one equation. -/
theorem ppuRegisterWritesLandInTheirFields : Obligations.PpuRegisterWritesLandInTheirFields := by
  unfold Obligations.PpuRegisterWritesLandInTheirFields
  intro a d s h1 h2
  simp only [busWrite_ppu a s d h1 h2, ppuRegWrite, ppuRegister_toNat]
  refine ⟨fun hr => ?_, fun hr => ?_, fun hr => ?_, fun hr => ?_, fun hr => ?_, fun hr hw => ?_, fun hr hw => ?_,
    fun hr hw => ?_, fun hr hw => ?_, fun hr => ?_⟩ <;> simp only [hr]
  · rw [writeControl_eq]
  · rw [writeMask]
  · rw [writeOamAddr]
  · rw [writeOamData]
  · rw [writeScroll_first d hw]
  · rw [writeScroll_second d hw]
  · rw [writeAddr_first d hw]
  · rw [writeAddr_second d hw]
  · rw [writeData_eq]

/-- Settles O46: the read on the bus is the register's, and the registers that are only written have no arm of their
own. -/
theorem ppuRegisterReadsAnswerAndActOnce : Obligations.PpuRegisterReadsAnswerAndActOnce := by
  unfold Obligations.PpuRegisterReadsAnswerAndActOnce
  intro a s h1 h2
  simp only [busRead_ppu a s h1 h2, ppuRegRead, ppuRegister_toNat]
  refine ⟨fun hr => ?_, fun hr => ?_, fun hr => ?_, fun hr => ?_⟩
  · simp only [hr, readStatus, statusByte_eq]
  · simp only [hr]
  · simp only [hr, readData_eq]
  · simp only [List.mem_cons, List.not_mem_nil, or_false, not_or] at hr
    obtain ⟨hstatus, hoam, hdata⟩ := hr
    split
    · exact absurd ‹_› hstatus
    · exact absurd ‹_› hoam
    · exact absurd ‹_› hdata
    · rfl

end Sys2Proof.Machine
end

section
/-! PROOF. The PPU's address space (R274 to R278, R338, R339, R350, R351): the physical byte behind an address, and a
read after a write. -/

namespace Sys2Proof.Machine

variable {c : Cart} {p : Ppu} {a b : PpuAddr} {d : Byte}

/-! ## Where an address points -/

theorem ntTable_eq (arr : Arrangement) (a : PpuAddr) :
    ntTable arr a = (if arr = .horizontal then a.getLsbD 11 else a.getLsbD 10).toNat := by
  cases arr <;> rfl

theorem ntIndex_eq (c : Cart) (a : PpuAddr) :
    ntIndex c a =
      1024 * (if cartArrangement c = .horizontal then a.getLsbD 11 else a.getLsbD 10).toNat + a.toNat % 1024 := by
  rw [ntIndex, ntTable_eq, Nat.mul_comm]

/-- Address bits that are neither in the offset nor the one that selects the table do not matter (R277). -/
theorem ntIndex_xor (c : Cart) (a mask : PpuAddr) (hoffset : mask.toNat % 2 ^ 10 = 0)
    (htable : (if cartArrangement c = .horizontal then mask.getLsbD 11 else mask.getLsbD 10) = false) :
    ntIndex c a = ntIndex c (a ^^^ mask) := by
  have hlow : a.toNat % 1024 = (a ^^^ mask).toNat % 1024 := by
    have hxor := Nat.xor_mod_two_pow (a := a.toNat) (b := mask.toNat) (n := 10)
    rw [hoffset, Nat.xor_zero, ← BitVec.toNat_xor] at hxor
    exact hxor.symm
  rw [ntIndex_eq, ntIndex_eq, hlow, BitVec.getLsbD_xor, BitVec.getLsbD_xor]
  split_ifs at htable ⊢ <;> rw [htable, Bool.xor_false]

theorem cartArrangement_nrom (h : c.mapper = .nrom) : cartArrangement c = c.headerArrangement := by
  rw [cartArrangement, h]

theorem cartArrangement_mmc1 {r : Mmc1} (h : c.mapper = .mmc1 r) :
    cartArrangement c =
      if r.control.toNat % 4 = 2 then .vertical
      else if r.control.toNat % 4 = 3 then .horizontal
      else c.headerArrangement := by
  have hmode : (r.control.extractLsb' 0 2).toNat = r.control.toNat % 4 := BitVec.extractLsb'_toNat 0 2 r.control
  simp only [cartArrangement, h, hmode]
  split
  · rw [if_pos ‹_›]
  · rw [if_neg (by omega), if_pos ‹_›]
  · rw [if_neg ‹_›, if_neg ‹_›]

/-- The mapper claims exactly the pattern addresses (R342, R349). -/
theorem mapPpuRead_isSome_iff : (∃ off, mapPpuRead c a = some off) ↔ a.toNat < 0x2000 := by
  unfold mapPpuRead
  by_cases h : a.toNat ≤ 0x1FFF
  · rw [if_pos h]
    refine ⟨fun _ => by omega, fun _ => ?_⟩
    cases c.mapper with
    | nrom => exact ⟨_, rfl⟩
    | mmc1 r => exact ⟨_, rfl⟩
  · rw [if_neg h]
    exact ⟨fun ⟨_, hoff⟩ => (Option.some_ne_none _ hoff.symm).elim, fun _ => by omega⟩

/-! ## Where a write lands (R276) -/

theorem ppuWrite_nametable (h1 : 0x2000 ≤ a.toNat) (h2 : a.toNat ≤ 0x3EFF) :
    ppuWrite c p a d = ({ p with nt := p.nt.write (ntIndex c a) d }, c) := by
  rcases ppuWrite_cases c p a d with ⟨_, -, h, -⟩ | ⟨-, h, -⟩ | ⟨-, -, e⟩ | ⟨h, -⟩
  · omega
  · omega
  · exact e
  · omega

theorem ppuWrite_palette (h : 0x3F00 ≤ a.toNat) :
    ppuWrite c p a d = ({ p with pal := p.pal.write (palIndex p a) d }, c) := by
  rcases ppuWrite_cases c p a d with ⟨_, -, h', -⟩ | ⟨-, h', -⟩ | ⟨-, h', -⟩ | ⟨-, e⟩
  · omega
  · omega
  · omega
  · exact e

theorem ppuWrite_chrRom (hrom : c.chrBanks ≠ 0) (h : a.toNat < 0x2000) : ppuWrite c p a d = (p, c) := by
  rcases ppuWrite_cases c p a d with ⟨_, h', -⟩ | ⟨-, -, e⟩ | ⟨h', -⟩ | ⟨h', -⟩
  · exact absurd h' hrom
  · exact e
  · omega
  · omega

theorem ppuWrite_chrRam {off : Nat} (hram : c.chrBanks = 0) (hoff : mapPpuRead c a = some off) :
    ppuWrite c p a d = (p, { c with chr := c.chr.write (off % 8192) d }) := by
  simp only [ppuWrite, cartPpuWrite, mapPpuWrite, hram, hoff, if_true, Cart.chrIndex, Cart.chrSize]

/-! ## Reading after a write -/

/-- From 0x2000 up a read returns the byte last written to the address. -/
theorem ppuRead_ppuWrite_same (h : 0x2000 ≤ a.toNat) :
    ppuRead (ppuWrite c p a d).2 (ppuWrite c p a d).1 a = d := by
  by_cases hp : 0x3F00 ≤ a.toNat
  · rw [ppuWrite_palette hp, ppuRead_palette _ _ _ hp]
    exact Mem.read_write_same _ _ _
  · have hn : a.toNat ≤ 0x3EFF := by omega
    rw [ppuWrite_nametable h hn, ppuRead_nametable _ _ _ h hn]
    exact Mem.read_write_same _ _ _

/-- A write to the nametables changes what is read at the addresses of its own byte only. -/
theorem ppuRead_nt_write {i : Nat} (h : 0x2000 ≤ b.toNat → b.toNat ≤ 0x3EFF → ntIndex c b ≠ i) :
    ppuRead c { p with nt := p.nt.write i d } b = ppuRead c p b := by
  by_cases hpat : b.toNat ≤ 0x1FFF
  · exact ppuRead_pattern _ _ _ _ hpat
  · by_cases hn : b.toNat ≤ 0x3EFF
    · rw [ppuRead_nametable _ _ _ (by omega) hn, ppuRead_nametable _ _ _ (by omega) hn]
      exact Mem.read_write_other _ _ (h (by omega) hn)
    · rw [ppuRead_palette _ _ _ (by omega), ppuRead_palette _ _ _ (by omega)]
      rfl

/-- A write to the palette changes what is read at the addresses of its own entry only. -/
theorem ppuRead_pal_write {i : Nat} (h : 0x3F00 ≤ b.toNat → palIndex p b ≠ i) :
    ppuRead c { p with pal := p.pal.write i d } b = ppuRead c p b := by
  by_cases hpat : b.toNat ≤ 0x1FFF
  · exact ppuRead_pattern _ _ _ _ hpat
  · by_cases hn : b.toNat ≤ 0x3EFF
    · rw [ppuRead_nametable _ _ _ (by omega) hn, ppuRead_nametable _ _ _ (by omega) hn]
    · rw [ppuRead_palette _ _ _ (by omega), ppuRead_palette _ _ _ (by omega)]
      exact Mem.read_write_other _ _ (h (by omega))

/-- A write from 0x2000 up leaves what is read at every address that is not of the same physical byte. -/
theorem ppuRead_ppuWrite_other (h : 0x2000 ≤ a.toNat)
    (hn : ¬ (a.toNat ≤ 0x3EFF ∧ 0x2000 ≤ b.toNat ∧ b.toNat ≤ 0x3EFF ∧ ntIndex c a = ntIndex c b))
    (hp : ¬ (0x3F00 ≤ a.toNat ∧ 0x3F00 ≤ b.toNat ∧ palIndex p a = palIndex p b)) :
    ppuRead (ppuWrite c p a d).2 (ppuWrite c p a d).1 b = ppuRead c p b := by
  by_cases ha : 0x3F00 ≤ a.toNat
  · rw [ppuWrite_palette ha]
    exact ppuRead_pal_write fun hb e => hp ⟨ha, hb, e.symm⟩
  · have ha' : a.toNat ≤ 0x3EFF := by omega
    rw [ppuWrite_nametable h ha']
    exact ppuRead_nt_write fun hb hb' e => hn ⟨ha', hb, hb', e.symm⟩

/-- The pattern byte of an address with CHR RAM (R334, R338). -/
theorem ppuRead_chrRam {off : Nat} (hram : c.chrBanks = 0) (hoff : mapPpuRead c a = some off) :
    ppuRead c p a = c.chr.read (off % 8192) := by
  rw [ppuRead_chr c p a hoff, Cart.chrIndex, Cart.chrSize, if_pos hram]

/-- With CHR RAM a write below 0x2000 changes one pattern byte, which is read back (R276, R339). -/
theorem ppuWrite_pattern (hram : c.chrBanks = 0) (h : a.toNat < 0x2000) :
    ppuWrite c p a d = (p, { c with chr := (ppuWrite c p a d).2.chr }) ∧
    ppuRead (ppuWrite c p a d).2 (ppuWrite c p a d).1 a = d ∧
    ∀ x y, mapPpuRead c a = some x → mapPpuRead c b = some y → x % 8192 ≠ y % 8192 →
      ppuRead (ppuWrite c p a d).2 (ppuWrite c p a d).1 b = ppuRead c p b := by
  obtain ⟨off, hoff⟩ := mapPpuRead_isSome_iff.mpr h
  rw [ppuWrite_chrRam hram hoff]
  refine ⟨rfl, ?_, fun x y hx hy hne => ?_⟩
  · have hread := ppuRead_chrRam (c := { c with chr := c.chr.write (off % 8192) d }) (p := p) hram hoff
    exact hread.trans (Mem.read_write_same _ _ _)
  · obtain rfl : off = x := Option.some.inj (hoff.symm.trans hx)
    have hread := ppuRead_chrRam (c := { c with chr := c.chr.write (off % 8192) d }) (p := p) hram hy
    rw [ppuRead_chrRam hram hy]
    exact hread.trans (Mem.read_write_other _ _ (Ne.symm hne))

/-! ## The palette fold -/

/-- The fold in closed form: slot `4k` of the upper half goes to slot `4k` of the lower one, and while both layers are
enabled to slot 0 (R278). -/
theorem palIndex_eq (p : Ppu) (a : PpuAddr) :
    palIndex p a =
      if a.toNat % 32 % 4 ≠ 0 then a.toNat % 32
      else if p.showBg = true ∧ p.showSpr = true then 0
      else a.toNat % 32 % 16 := by
  have hi : a.toNat % 32 < 32 := Nat.mod_lt _ (by decide)
  unfold palIndex
  dsimp only
  generalize a.toNat % 32 = i at hi ⊢
  by_cases h4 : i % 4 = 0
  · have hslot : (if i = 0x10 ∨ i = 0x14 ∨ i = 0x18 ∨ i = 0x1C then i - 0x10 else i) = i % 16 := by
      split <;> omega
    rw [hslot, if_neg (not_not.mpr h4)]
    by_cases hboth : p.showBg = true ∧ p.showSpr = true
    · rw [if_pos hboth]
      by_cases hlow : i % 16 = 0x04 ∨ i % 16 = 0x08 ∨ i % 16 = 0x0C
      · exact if_pos ⟨hboth.1, hboth.2, hlow⟩
      · rw [if_neg fun ⟨_, _, h⟩ => hlow h]
        omega
    · rw [if_neg hboth, if_neg fun ⟨hb, hs, _⟩ => hboth ⟨hb, hs⟩]
  · rw [if_pos h4, if_neg (by omega : ¬ (i = 0x10 ∨ i = 0x14 ∨ i = 0x18 ∨ i = 0x1C)), if_neg (by omega)]

/-! ## The statements -/

/-- Settles O47: the byte behind an address, then a read after a write in each of the three areas. -/
theorem ppuMemoryReadsBackWhatWasWritten : Obligations.PpuMemoryReadsBackWhatWasWritten := by
  unfold Obligations.PpuMemoryReadsBackWhatWasWritten
  intro c p a b d
  exact ⟨fun _ => ppuRead_chr c p a, ppuRead_nametable c p a, ppuRead_palette c p a, ntIndex_eq c a,
    cartArrangement_nrom, fun _ => cartArrangement_mmc1, ppuRead_ppuWrite_same, ppuRead_ppuWrite_other,
    fun h => ntIndex_xor c a _ (by decide) (by rw [if_pos h]; decide),
    fun h => ntIndex_xor c a _ (by decide) (by rw [if_neg (by rw [h]; decide)]; decide),
    ntIndex_xor c a _ (by decide) (by split <;> decide), ntIndex_lt c a, ppuWrite_chrRom, ppuWrite_pattern⟩

/-- Settles O48, from the closed form of the fold; slots 16, 20, 24 and 28 are multiples of four. -/
theorem paletteSlotsFold : Obligations.PaletteSlotsFold := by
  unfold Obligations.PaletteSlotsFold
  intro p a
  have heq := palIndex_eq p a
  refine ⟨palIndex_lt p a, fun k hk => ?_, fun h => ?_, fun h hboth => ?_, fun h hboth => ?_⟩
  · rw [heq]
    split_ifs <;> omega
  · rw [heq, if_pos h]
  · rw [heq, if_neg (not_not.mpr h)]
    exact if_pos hboth
  · rw [heq, if_neg (not_not.mpr h)]
    exact if_neg hboth

end Sys2Proof.Machine
end

section
/-! PROOF. One dot, step by step (R280): what each step is in each of its cases, the flags and the NMI request (R282,
R283), the cadence of the frame (R281), and a dot with rendering off (R296). -/

namespace Sys2Proof.Machine

variable {c : Cart} {p : Ppu} {s : State}

/-! ## The steps of a dot -/

theorem tickFlags_vblankEntry (hy : p.scanline = 241) (hx : p.cycle = 1) : tickFlags p = vblankEntry p :=
  if_pos ⟨hy, hx⟩

theorem tickFlags_preRender (hy : p.scanline = 261) (hx : p.cycle = 1) : tickFlags p = preRenderClear p := by
  rw [tickFlags, if_neg (by omega), if_pos ⟨hy, hx⟩]

theorem tickFlags_visible (hy : p.scanline ≤ 239) : tickFlags p = p := by
  rw [tickFlags, if_neg (by omega), if_neg (by omega)]

theorem tickPixel_visible (hy : p.scanline ≤ 239) (h1 : 1 ≤ p.cycle) (h2 : p.cycle ≤ 256) :
    tickPixel p = emitPixel p (p.cycle - 1) p.scanline :=
  if_pos ⟨hy, h1, h2⟩

theorem tickPixel_hidden (h : ¬ (p.scanline ≤ 239 ∧ 1 ≤ p.cycle ∧ p.cycle ≤ 256)) : tickPixel p = p := if_neg h

@[simp] theorem tickFlags_rendering (p : Ppu) : (tickFlags p).rendering = p.rendering := by
  rw [tickFlags_frame]
  rfl

@[simp] theorem tickPixel_rendering (p : Ppu) : (tickPixel p).rendering = p.rendering := by
  rw [tickPixel_frame]
  rfl

@[simp] theorem tickBackground_rendering (c : Cart) (p : Ppu) : (tickBackground c p).rendering = p.rendering := by
  rw [tickBackground_frame]
  rfl

theorem renderLine_iff : p.renderLine = true ↔ p.scanline ≤ 239 ∨ p.scanline = 261 := by
  simp [Ppu.renderLine]

/-- Outside the rendering lines, and with rendering off, step C does nothing. -/
theorem tickBackground_hold (h : (p.renderLine && p.rendering) = false) : tickBackground c p = p := by
  rw [tickBackground, h]
  rfl

theorem tickSprites_eq (c : Cart) (p : Ppu) :
    tickSprites c p =
      if p.renderLine then
        if p.scanline ≤ 239 ∧ p.rendering = true then tickFetchSprite c (tickEvaluate (dropUnits p)) else dropUnits p
      else p := by
  have hq : (if p.cycle = 257 then { p with units := [] } else p) = dropUnits p := by
    unfold dropUnits
    split <;> rfl
  rw [tickSprites, hq]
  rfl

/-- Step D of a dot with rendering off: dot 257 still drops the fetched units. -/
theorem tickSprites_off (h : p.rendering = false) :
    tickSprites c p =
      { p with units := if p.cycle = 257 ∧ (p.scanline ≤ 239 ∨ p.scanline = 261) then [] else p.units } := by
  have hoff : ¬ (p.scanline ≤ 239 ∧ p.rendering = true) := fun hv => absurd (h.symm.trans hv.2) (by decide)
  rw [tickSprites_eq, if_neg hoff]
  by_cases hl : p.scanline ≤ 239 ∨ p.scanline = 261
  · rw [if_pos (renderLine_iff.mpr hl), dropUnits]
    simp only [hl, and_true]
  · rw [if_neg fun hr => hl (renderLine_iff.mp hr), if_neg fun hd => hl hd.2]

/-- Step D of a dot of a visible line with rendering on. -/
theorem tickSprites_on (hy : p.scanline ≤ 239) (h : p.rendering = true) :
    tickSprites c p = tickFetchSprite c (tickEvaluate (dropUnits p)) := by
  rw [tickSprites_eq, if_pos (renderLine_iff.mpr (.inl hy)), if_pos ⟨hy, h⟩]

/-- Below the visible lines no sprite is evaluated. -/
theorem tickSprites_overflow_hidden (hy : 239 < p.scanline) : (tickSprites c p).overflow = p.overflow := by
  rcases tickSprites_cases c p with ⟨-, e⟩ | e | ⟨hv, -⟩
  · rw [e]
  · rw [e, dropUnits]
  · omega

theorem ppuTick_vblank (c : Cart) (p : Ppu) : (ppuTick c p).vblank = (tickFlags p).vblank := by simp [ppuTick]

theorem ppuTick_sprite0 (c : Cart) (p : Ppu) : (ppuTick c p).sprite0 = (tickPixel (tickFlags p)).sprite0 := by
  simp [ppuTick]

/-! ## The flags and the NMI request (R282, R283) -/

/-- No write to a register changes the NMI request. -/
theorem ppuRegWrite_nmiOut (r : BitVec 3) (d : Byte) (p : Ppu) (c : Cart) :
    (ppuRegWrite r d p c).1.nmiOut = p.nmiOut := by
  unfold ppuRegWrite
  split
  case h_5 =>
    unfold writeScroll
    split <;> rfl
  case h_6 =>
    unfold writeAddr
    split <;> rfl
  case h_7 => rw [writeData_eq, ppuWrite_frame]
  all_goals rfl

/-- Settles O36: the request at the end of a dot is the one its flags raised, and only the dot (241, 1) raises one. -/
theorem nmiIsDeliveredAtVblankEntry : Obligations.NmiIsDeliveredAtVblankEntry := by
  unfold Obligations.NmiIsDeliveredAtVblankEntry
  intro s hquiet
  have hout : (ppuTick s.cart s.ppu).nmiOut =
      (decide (s.ppu.scanline = 241 ∧ s.ppu.cycle = 1) && s.ppu.control.getLsbD 7) := by
    rw [ppuTick_nmiOut, hquiet, Bool.false_or, Ppu.nmiEnable]
  refine ⟨fun hat hen => ppuDot_nmi s ?_, fun hnot => ?_, fun hat => ?_, fun r => ?_, fun r d => ?_⟩
  · rw [hout, decide_eq_true hat, hen, Bool.and_self]
  · have hno : (ppuTick s.cart s.ppu).nmiOut = false := by
      rw [hout, Bool.and_eq_false_imp]
      exact fun hat => Bool.eq_false_iff.mpr fun hen => hnot ⟨of_decide_eq_true hat, hen⟩
    rw [ppuDot_quiet s hno, ← hno]
  · change (ppuTick s.cart s.ppu).vblank = true
    rw [ppuTick_vblank, tickFlags_vblankEntry hat.1 hat.2, vblankEntry]
  · rw [ppuRegRead_frame]
    exact hquiet
  · rw [ppuRegWrite_nmiOut, hquiet]

/-- The three flags are clear after the dot (261, 1) (R283). -/
theorem ppuTick_preRender (hy : p.scanline = 261) (hx : p.cycle = 1) :
    (ppuTick c p).vblank = false ∧ (ppuTick c p).sprite0 = false ∧ (ppuTick c p).overflow = false := by
  have hpix : tickPixel (preRenderClear p) = preRenderClear p := tickPixel_hidden fun h => by
    rw [preRenderClear, hy] at h
    omega
  refine ⟨?_, ?_, ?_⟩
  · rw [ppuTick_vblank, tickFlags_preRender hy hx, preRenderClear]
  · rw [ppuTick_sprite0, tickFlags_preRender hy hx, hpix, preRenderClear]
  · rw [ppuTick, advance_overflow, tickFlags_preRender hy hx, hpix, tickSprites_overflow_hidden,
      tickBackground_overflow, preRenderClear]
    rw [tickBackground_scanline, preRenderClear, hy]
    decide

/-! ## The cadence of the frame (R281) -/

theorem inFrame_tick (c : Cart) (h : p.InFrame) : (ppuTick c p).InFrame := by
  obtain ⟨hy, hx, -⟩ := ppuTick_position c p
  rw [Ppu.InFrame, hy, hx]
  exact advance_scanline_cycle_le h.1 h.2

theorem dotNumber_lt (h : p.InFrame) : dotNumber p < 89342 := by
  obtain ⟨hy, hx⟩ := h
  unfold dotNumber
  omega

theorem dotNumber_tick (c : Cart) (h : p.InFrame) : dotNumber (ppuTick c p) = (dotNumber p + 1) % 89342 := by
  obtain ⟨hy, hx, -⟩ := ppuTick_position c p
  rw [dotNumber, hy, hx, ← dotNumber_advance h, dotNumber]

/-- The last of `n + 1` dots. -/
theorem ppuTicks_succ (c : Cart) (n : Nat) (p : Ppu) : ppuTicks c (n + 1) p = ppuTick c (ppuTicks c n p) :=
  ppuTicks_add c n 1 p

theorem inFrame_ticks (c : Cart) (n : Nat) (h : p.InFrame) : (ppuTicks c n p).InFrame := by
  induction n with
  | zero => exact h
  | succ n ih => exact ppuTicks_succ c n p ▸ inFrame_tick c ih

theorem dotNumber_ticks (c : Cart) (n : Nat) (h : p.InFrame) :
    dotNumber (ppuTicks c n p) = (dotNumber p + n) % 89342 := by
  induction n with
  | zero => rw [ppuTicks, Nat.add_zero, Nat.mod_eq_of_lt (dotNumber_lt h)]
  | succ n ih => rw [ppuTicks_succ, dotNumber_tick c (inFrame_ticks c n h), ih, Nat.mod_add_mod, Nat.add_assoc]

theorem dotNumber_eq_last_iff (h : p.InFrame) : dotNumber p = 89341 ↔ p.scanline = 261 ∧ p.cycle = 340 := by
  obtain ⟨hy, hx⟩ := h
  unfold dotNumber
  omega

/-- `frame_complete` toggles at the last dot of the frame (R281). -/
theorem ppuTick_frameComplete (c : Cart) (p : Ppu) :
    (ppuTick c p).frameComplete = if p.scanline = 261 ∧ p.cycle = 340 then !p.frameComplete else p.frameComplete := by
  obtain ⟨-, -, hframe⟩ := ppuTick_position c p
  rw [hframe, advance]
  by_cases hx : p.cycle = 340
  · by_cases hy : p.scanline = 261 <;> simp [hx, hy]
  · simp [hx]

/-- `frame_complete` after `n` dots: toggled once for each frame completed. -/
theorem frameComplete_ticks (c : Cart) (n : Nat) (h : p.InFrame) :
    (ppuTicks c n p).frameComplete =
      if (dotNumber p + n) / 89342 % 2 = 1 then !p.frameComplete else p.frameComplete := by
  induction n with
  | zero =>
    have hlt := dotNumber_lt h
    rw [if_neg (by omega), ppuTicks]
  | succ n ih =>
    have hlast := dotNumber_eq_last_iff (inFrame_ticks c n h)
    rw [dotNumber_ticks c n h] at hlast
    rw [ppuTicks_succ, ppuTick_frameComplete, ← if_congr hlast rfl rfl, ih]
    by_cases hwrap : (dotNumber p + n) % 89342 = 89341
    · rw [if_pos hwrap]
      by_cases hodd : (dotNumber p + n) / 89342 % 2 = 1
      · rw [if_pos hodd, if_neg (by omega), Bool.not_not]
      · rw [if_neg hodd, if_pos (by omega)]
    · rw [if_neg hwrap]
      exact if_congr (by omega) rfl rfl

/-- Settles O49: the dot number steps modulo 89342, and a frame has one last dot. -/
theorem aFrameIsEightyNineThousandDots : Obligations.AFrameIsEightyNineThousandDots := by
  unfold Obligations.AFrameIsEightyNineThousandDots
  intro c p hy hx
  have hf : p.InFrame := ⟨hy, hx⟩
  have hlt := dotNumber_lt hf
  refine ⟨fun n => dotNumber_ticks c n hf, fun n => inFrame_ticks c n hf, ?_, ?_⟩
  · rw [ppuTick_frameComplete]
    split
    · exact iff_of_true (Bool.not_ne_self _) ‹_›
    · exact iff_of_false (fun h => h rfl) ‹_›
  · rw [frameComplete_ticks c 89342 hf, if_pos (by omega)]

/-! ## Rendering off (R296) -/

/-- With both layers off a visible dot shows palette entry 0 (R292, R293, R296). -/
theorem emitPixel_off (hb : p.showBg = false) (hs : p.showSpr = false) (x y : Nat) :
    emitPixel p x y = { p with framebuffer := p.framebuffer.write (256 * y + x) ((p.pal.read 0).setWidth 6) } := by
  have hbg : bgPixel p x = { px := 0, pal := 0 } := if_pos (.inl hb)
  have hspr : sprPixel p x = none := if_pos (.inl hs)
  have hpal : palIndex p (0x3F00#14 ||| (0 : BitVec 5).setWidth 14) = 0 := by
    rw [palIndex_eq, if_neg (by decide), hb]
    exact if_neg fun h => absurd h.1 (by decide)
  rw [emitPixel, hbg, hspr]
  dsimp only [mergeIndex, bgIndex, sprite0Hit]
  rw [if_pos rfl, hpal, Bool.or_false]

/-- With rendering off a dot is its flags, its pixel, and the drop of the fetched units at dot 257 of a
rendering line. -/
theorem ppuTick_off (h : p.rendering = false) :
    ppuTick c p =
      advance { tickPixel (tickFlags p) with
        units := if p.cycle = 257 ∧ (p.scanline ≤ 239 ∨ p.scanline = 261) then [] else p.units } := by
  have hpix : (tickPixel (tickFlags p)).rendering = false := by rw [tickPixel_rendering, tickFlags_rendering, h]
  rw [ppuTick, tickBackground_hold (by rw [hpix, Bool.and_false]), tickSprites_off hpix]
  simp only [tickPixel_cycle, tickPixel_scanline, tickPixel_units, tickFlags_cycle, tickFlags_scanline, tickFlags_units]

theorem ppuTick_framebuffer_eq (c : Cart) (p : Ppu) :
    (ppuTick c p).framebuffer = (tickPixel (tickFlags p)).framebuffer := by simp [ppuTick]

/-- Settles O50: the flags, the request and the cadence do not look at rendering; with it off, step B writes the one
colour and step D drops the units. -/
theorem renderingOffHoldsThePipeline : Obligations.RenderingOffHoldsThePipeline := by
  unfold Obligations.RenderingOffHoldsThePipeline
  intro c p
  refine ⟨fun hy hx => ppuTick_preRender hy hx, fun hy hx => ⟨?_, ?_⟩, fun hy hx => dotNumber_tick c ⟨hy, hx⟩,
    fun hb hs => ?_⟩
  · rw [ppuTick_vblank, tickFlags_vblankEntry hy hx, vblankEntry]
  · rw [ppuTick_nmiOut, decide_eq_true ⟨hy, hx⟩, Bool.true_and, Ppu.nmiEnable]
  · have hoff : p.rendering = false := by rw [Ppu.rendering, Ppu.showBg, hb, Ppu.showSpr, hs, Bool.or_self]
    refine ⟨?_, ?_, ?_, ?_, ?_, ?_, ?_, ?_, fun hy h1 h2 => ?_, fun hn => ?_⟩
    case refine_9 => rw [ppuTick_framebuffer_eq, tickFlags_visible hy, tickPixel_visible hy h1 h2, emitPixel_off hb hs]
    case refine_10 =>
      have hhidden : tickPixel (tickFlags p) = tickFlags p :=
        tickPixel_hidden (by rwa [tickFlags_scanline, tickFlags_cycle])
      rw [ppuTick_framebuffer_eq, hhidden, tickFlags_framebuffer]
    all_goals simp [ppuTick_off hoff]

end Sys2Proof.Machine
end

section
/-! PROOF. The steps of `v` (R273, R286 to R288): each in the fields of `v`, and as one position in the plane of the
nametables. -/

namespace Sys2Proof.Machine

variable {v : Scroll}

/-! ## The fields of `v` (R273) -/

theorem coarseX_toNat (v : Scroll) : (coarseX v).toNat = v.toNat % 32 := BitVec.extractLsb'_toNat 0 5 v

theorem coarseY_toNat (v : Scroll) : (coarseY v).toNat = v.toNat / 32 % 32 := by
  rw [coarseY, BitVec.extractLsb'_toNat, Nat.shiftRight_eq_div_pow]

theorem fineY_toNat (v : Scroll) : (fineY v).toNat = v.toNat / 4096 % 8 := by
  rw [fineY, BitVec.extractLsb'_toNat, Nat.shiftRight_eq_div_pow]

section

variable (v : Scroll) (f : BitVec 5) (g : BitVec 3)

@[simp] theorem coarseX_putField_x : coarseX (putField v 0 f) = f := extractLsb'_putField_same v f (by decide)
@[simp] theorem coarseY_putField_x : coarseY (putField v 0 f) = coarseY v := extractLsb'_putField_other v f (by decide)
@[simp] theorem fineY_putField_x : fineY (putField v 0 f) = fineY v := extractLsb'_putField_other v f (by decide)
@[simp] theorem coarseX_putField_y : coarseX (putField v 5 f) = coarseX v := extractLsb'_putField_other v f (by decide)
@[simp] theorem coarseY_putField_y : coarseY (putField v 5 f) = f := extractLsb'_putField_same v f (by decide)
@[simp] theorem fineY_putField_y : fineY (putField v 5 f) = fineY v := extractLsb'_putField_other v f (by decide)
@[simp] theorem coarseX_putField_fine : coarseX (putField v 12 g) = coarseX v :=
  extractLsb'_putField_other v g (by decide)
@[simp] theorem coarseY_putField_fine : coarseY (putField v 12 g) = coarseY v :=
  extractLsb'_putField_other v g (by decide)
@[simp] theorem fineY_putField_fine : fineY (putField v 12 g) = g := extractLsb'_putField_same v g (by decide)

/-- A flip of a nametable bit leaves the coarse and fine fields (R286, R287). -/
theorem fields_flip {mask : Scroll} (h : coarseX mask = 0 ∧ coarseY mask = 0 ∧ fineY mask = 0) :
    coarseX (v ^^^ mask) = coarseX v ∧ coarseY (v ^^^ mask) = coarseY v ∧ fineY (v ^^^ mask) = fineY v := by
  obtain ⟨hx, hy, hf⟩ := h
  simp only [coarseX, coarseY, fineY, BitVec.extractLsb'_xor] at hx hy hf ⊢
  rw [hx, hy, hf]
  exact ⟨BitVec.xor_zero, BitVec.xor_zero, BitVec.xor_zero⟩

end

/-! ## The position in the plane of the nametables -/

/-- The column of tiles, over the two nametables side by side: `coarse_x + 32 * v[10]`. -/
def scrollX (v : Scroll) : Nat := v.toNat % 32 + 32 * (v.getLsbD 10).toNat

/-- The row of pixels in its nametable: `fine_y + 8 * coarse_y`. -/
def scrollRow (v : Scroll) : Nat := v.toNat / 4096 % 8 + 8 * (v.toNat / 32 % 32)

theorem scrollX_eq (v : Scroll) : scrollX v = (coarseX v).toNat + 32 * (v.getLsbD 10).toNat := by
  rw [scrollX, coarseX_toNat]

theorem scrollRow_eq (v : Scroll) : scrollRow v = (fineY v).toNat + 8 * (coarseY v).toNat := by
  rw [scrollRow, fineY_toNat, coarseY_toNat]

/-- Equal vertical fields are equal rows. -/
theorem scrollRow_congr {v v' : Scroll} (hf : fineY v' = fineY v) (hy : coarseY v' = coarseY v) :
    scrollRow v' = scrollRow v := by
  rw [scrollRow_eq, scrollRow_eq, hf, hy]

theorem scrollX_congr {v v' : Scroll} (hx : coarseX v' = coarseX v) (h10 : v'.getLsbD 10 = v.getLsbD 10) :
    scrollX v' = scrollX v := by
  rw [scrollX_eq, scrollX_eq, hx, h10]

/-! ## The steps -/

/-- A field below its last value steps by one. -/
theorem toNat_add_one {k : Nat} {f : BitVec k} (h : f.toNat + 1 < 2 ^ k) : (f + 1).toNat = f.toNat + 1 := by
  have hone : (1 : BitVec k).toNat = 1 % 2 ^ k := BitVec.toNat_ofNat 1 k
  rw [BitVec.toNat_add, hone, Nat.add_mod_mod, Nat.mod_eq_of_lt h]

/-- The coarse-x step leaves the vertical fields and bit 11. -/
theorem incCoarseX_vertical (v : Scroll) :
    coarseY (incCoarseX v) = coarseY v ∧ fineY (incCoarseX v) = fineY v ∧
      (incCoarseX v).getLsbD 11 = v.getLsbD 11 := by
  obtain ⟨-, hflipY, hflipF⟩ := fields_flip (putField v 0 0#5) (mask := 0x0400) (by decide)
  unfold incCoarseX
  split
  · rw [hflipY, hflipF, BitVec.getLsbD_xor, getLsbD_putField_other _ _ (by decide)]
    exact ⟨coarseY_putField_x v _, fineY_putField_x v _, Bool.xor_false _⟩
  · exact ⟨coarseY_putField_x v _, fineY_putField_x v _, getLsbD_putField_other _ _ (by decide)⟩

/-- The coarse-x step is one column right in the 64 columns (R286). -/
theorem scrollX_incCoarseX (v : Scroll) : scrollX (incCoarseX v) = (scrollX v + 1) % 64 := by
  obtain ⟨hflipX, -⟩ := fields_flip (putField v 0 0#5) (mask := 0x0400) (by decide)
  rw [scrollX_eq, scrollX_eq, incCoarseX]
  by_cases h : coarseX v = 31
  · rw [if_pos h, hflipX, coarseX_putField_x, BitVec.getLsbD_xor, getLsbD_putField_other _ _ (by decide), h]
    cases v.getLsbD 10 <;> decide
  · have hlt : (coarseX v).toNat ≠ 31 := fun e => h (BitVec.eq_of_toNat_eq e)
    have hx := (coarseX v).isLt
    have hb := Bool.toNat_le (v.getLsbD 10)
    have hsucc := toNat_add_one (f := coarseX v) (by omega)
    rw [if_neg h, coarseX_putField_x, getLsbD_putField_other _ _ (by decide), hsucc]
    omega

/-- The horizontal copy takes the column of `t` and leaves the rest of `v` (R288). -/
theorem copyX_fields (v t : Scroll) :
    coarseX (copyX v t) = coarseX t ∧ (copyX v t).getLsbD 10 = t.getLsbD 10 ∧
    coarseY (copyX v t) = coarseY v ∧ fineY (copyX v t) = fineY v ∧ (copyX v t).getLsbD 11 = v.getLsbD 11 := by
  refine ⟨?_, ?_, ?_, ?_, ?_⟩
  · exact (extractLsb'_putBit_other _ _ (by decide)).trans (coarseX_putField_x v _)
  · rw [copyX, getLsbD_putBit, if_pos (by decide)]
  · exact (extractLsb'_putBit_other _ _ (by decide)).trans (coarseY_putField_x v _)
  · exact (extractLsb'_putBit_other _ _ (by decide)).trans (fineY_putField_x v _)
  · rw [copyX, getLsbD_putBit, if_neg (by decide), getLsbD_putField_other _ _ (by decide)]

/-- The y step of a row that is not the last of its tile. -/
theorem incY_fine (h : (fineY v).toNat < 7) : incY v = putField v 12 (fineY v + 1) := if_pos h

/-- The y step from the last row of a tile to the next tile; coarse-y 31 steps to 0 in its five bits. -/
theorem incY_tile (h : ¬ (fineY v).toNat < 7) (hy : coarseY v ≠ 29) :
    incY v = putField (putField v 12 0#3) 5 (coarseY v + 1) := by
  rw [incY, if_neg h]
  dsimp only
  rw [coarseY_putField_fine, if_neg hy]
  by_cases h31 : coarseY v = 31
  · rw [if_pos h31, h31]
    rfl
  · rw [if_neg h31]

/-- The y step from the last row of a nametable: to its top, with a flip to the other one. -/
theorem incY_table (h : ¬ (fineY v).toNat < 7) (hy : coarseY v = 29) :
    incY v = putField (putField v 12 0#3) 5 0#5 ^^^ 0x0800 := by
  rw [incY, if_neg h]
  dsimp only
  rw [coarseY_putField_fine, if_pos hy]

/-- The y step leaves the column (R287). -/
theorem scrollX_incY (v : Scroll) : scrollX (incY v) = scrollX v := by
  by_cases h : (fineY v).toNat < 7
  · rw [incY_fine h]
    exact scrollX_congr (by simp) (getLsbD_putField_other _ _ (by decide))
  · by_cases hy : coarseY v = 29
    · obtain ⟨hflipX, -⟩ := fields_flip (putField (putField v 12 0#3) 5 0#5) (mask := 0x0800) (by decide)
      rw [incY_table h hy]
      refine scrollX_congr (hflipX.trans (by simp)) ?_
      rw [BitVec.getLsbD_xor, getLsbD_putField_other _ _ (by decide), getLsbD_putField_other _ _ (by decide)]
      exact Bool.xor_false _
    · rw [incY_tile h hy]
      refine scrollX_congr (by simp) ?_
      rw [getLsbD_putField_other _ _ (by decide), getLsbD_putField_other _ _ (by decide)]

/-- The row after a y step: one down, in the 240 rows of the visible tiles or the 256 of all 32 (R287). -/
theorem scrollRow_incY (v : Scroll) :
    scrollRow (incY v) = (scrollRow v + 1) % (if (coarseY v).toNat < 30 then 240 else 256) := by
  have hf := (fineY v).isLt
  have hc := (coarseY v).isLt
  rw [scrollRow_eq, scrollRow_eq]
  by_cases h : (fineY v).toNat < 7
  · rw [incY_fine h, fineY_putField_fine, coarseY_putField_fine, toNat_add_one (by omega)]
    split <;> omega
  · by_cases hy : coarseY v = 29
    · obtain ⟨-, hflipY, hflipF⟩ := fields_flip (putField (putField v 12 0#3) 5 0#5) (mask := 0x0800) (by decide)
      have hf7 : (fineY v).toNat = 7 := by omega
      rw [incY_table h hy, hflipY, hflipF, fineY_putField_y, fineY_putField_fine, coarseY_putField_y, hf7, hy]
      decide
    · have hne : (coarseY v).toNat ≠ 29 := fun e => hy (BitVec.eq_of_toNat_eq e)
      have hsucc : (coarseY v + 1).toNat = ((coarseY v).toNat + 1) % 32 := BitVec.toNat_add _ _
      rw [incY_tile h hy, fineY_putField_y, fineY_putField_fine, coarseY_putField_y, hsucc, BitVec.toNat_zero]
      split <;> omega

/-- The y step flips bit 11 at the last row of the visible tiles only (R287). -/
theorem getLsbD_incY_eleven (v : Scroll) :
    (incY v).getLsbD 11 = (v.getLsbD 11 != decide (scrollRow v = 239)) := by
  have hf := (fineY v).isLt
  rw [scrollRow_eq]
  by_cases h : (fineY v).toNat < 7
  · rw [incY_fine h, getLsbD_putField_other _ _ (by decide), decide_eq_false (by omega), Bool.bne_false]
  · by_cases hy : coarseY v = 29
    · have hf7 : (fineY v).toNat = 7 := by omega
      rw [incY_table h hy, BitVec.getLsbD_xor, getLsbD_putField_other _ _ (by decide),
        getLsbD_putField_other _ _ (by decide), hf7, hy]
      rfl
    · have hne : (coarseY v).toNat ≠ 29 := fun e => hy (BitVec.eq_of_toNat_eq e)
      rw [incY_tile h hy, getLsbD_putField_other _ _ (by decide), getLsbD_putField_other _ _ (by decide),
        decide_eq_false (by omega), Bool.bne_false]

/-- Settles O55: each step by its fields; only the y step from row 239 changes bit 11. -/
theorem scrollStepsWrapAsOnePosition : Obligations.ScrollStepsWrapAsOnePosition := by
  unfold Obligations.ScrollStepsWrapAsOnePosition
  intro xOf row yOf v t
  have hyOf (u : Scroll) : yOf u = scrollRow u + 240 * (u.getLsbD 11).toNat := rfl
  have hcy := coarseY_toNat v
  obtain ⟨hxy, hxf, hx11⟩ := incCoarseX_vertical v
  obtain ⟨hcx, hc10, hcyv, hcf, hc11⟩ := copyX_fields v t
  have hrow := scrollRow_incY v
  have hbit := getLsbD_incY_eleven v
  rw [hcy] at hrow
  refine ⟨⟨scrollX_incCoarseX v, ?_, scrollRow_congr hxf hxy⟩, fun h => ⟨?_, ?_, hbit, scrollX_incY v⟩,
    fun h => ⟨?_, ?_, scrollX_incY v⟩, scrollX_congr hcx hc10, ?_, scrollRow_congr hcf hcyv⟩
  · rw [hyOf, hyOf, scrollRow_congr hxf hxy, hx11]
  · have hb := Bool.toNat_le (v.getLsbD 11)
    have hlt := (fineY v).isLt
    have hrow' := scrollRow_eq v
    rw [hyOf, hyOf, hrow, if_pos h, hbit]
    by_cases hlast : scrollRow v = 239
    · rw [decide_eq_true hlast, hlast]
      cases v.getLsbD 11 <;> rfl
    · rw [decide_eq_false hlast, Bool.bne_false]
      omega
  · rwa [if_pos h] at hrow
  · rwa [if_neg (by omega)] at hrow
  · rw [hbit, decide_eq_false, Bool.bne_false]
    have hrow' := scrollRow_eq v
    omega
  · rw [hyOf, hyOf, scrollRow_congr hcf hcyv, hc11]

end Sys2Proof.Machine
end

section
/-! PROOF. The background pipeline (R284 to R289): the dots at which `v` and the shift registers move, and what a tile
fetch loads. -/

namespace Sys2Proof.Machine

variable {c : Cart} {p : Ppu}

/-! ## The two parts of step C -/

theorem shiftDot_iff :
    p.shiftDot = true ↔ 1 ≤ p.cycle ∧ p.cycle ≤ 256 ∨ 321 ≤ p.cycle ∧ p.cycle ≤ 336 := by simp [Ppu.shiftDot]

theorem tickShift_hold (h : p.shiftDot = false) : tickShift c p = p := by
  rw [tickShift, h]
  rfl

theorem tickShift_shift (h : p.shiftDot = true) (h8 : p.cycle % 8 ≠ 0) : tickShift c p = shiftBackground p := by
  rw [tickShift, if_pos h]
  exact if_neg h8

theorem tickShift_fetch (h : p.shiftDot = true) (h8 : p.cycle % 8 = 0) :
    tickShift c p = { fetchTile c (shiftBackground p) with v := incCoarseX p.v } := by
  rw [tickShift, if_pos h]
  exact if_pos h8

theorem tickBackground_on (hl : p.renderLine = true) (hr : p.rendering = true) :
    tickBackground c p = tickScroll (tickShift c p) := by
  rw [tickBackground, hl, hr]
  rfl

/-! ## Step C does not see what steps A and B change -/

/-- The PPU with its flags, its NMI request and its frame buffer changed. -/
def Ppu.withOutputs (p : Ppu) (vb s0 ov nmi : Bool) (fb : Mem 6) : Ppu :=
  { p with vblank := vb, sprite0 := s0, overflow := ov, nmiOut := nmi, framebuffer := fb }

/-- Steps A and B of a dot change outputs only. -/
theorem tickPixel_tickFlags_eq (p : Ppu) :
    ∃ vb s0 ov nmi fb, tickPixel (tickFlags p) = p.withOutputs vb s0 ov nmi fb :=
  ⟨_, _, _, _, _, (tickPixel_frame _).trans (congrArg
    (fun q : Ppu => { q with
      sprite0 := (tickPixel (tickFlags p)).sprite0, framebuffer := (tickPixel (tickFlags p)).framebuffer })
    (tickFlags_frame p))⟩

theorem tickShift_withOutputs (c : Cart) (p : Ppu) (vb s0 ov nmi : Bool) (fb : Mem 6) :
    tickShift c (p.withOutputs vb s0 ov nmi fb) = (tickShift c p).withOutputs vb s0 ov nmi fb := by
  cases h : p.shiftDot with
  | false =>
    rw [tickShift_hold h]
    exact tickShift_hold h
  | true =>
    by_cases h8 : p.cycle % 8 = 0
    · rw [tickShift_fetch h h8]
      exact tickShift_fetch h h8
    · rw [tickShift_shift h h8]
      exact tickShift_shift h h8

theorem tickBackground_withOutputs (c : Cart) (p : Ppu) (vb s0 ov nmi : Bool) (fb : Mem 6) :
    tickBackground c (p.withOutputs vb s0 ov nmi fb) = (tickBackground c p).withOutputs vb s0 ov nmi fb := by
  cases h : p.renderLine && p.rendering with
  | false =>
    rw [tickBackground_hold h]
    exact tickBackground_hold h
  | true =>
    obtain ⟨hl, hr⟩ := Bool.and_eq_true_iff.mp h
    rw [tickBackground_on hl hr]
    refine (tickBackground_on (p := p.withOutputs vb s0 ov nmi fb) hl hr).trans ?_
    rw [tickShift_withOutputs]
    rfl

/-- What a dot makes of `v` and the shift registers is what step C makes of them. -/
theorem ppuTick_background (c : Cart) (p : Ppu) :
    (ppuTick c p).v = (tickBackground c p).v ∧
    (ppuTick c p).bgLo = (tickBackground c p).bgLo ∧ (ppuTick c p).bgHi = (tickBackground c p).bgHi ∧
    (ppuTick c p).atLo = (tickBackground c p).atLo ∧ (ppuTick c p).atHi = (tickBackground c p).atHi := by
  obtain ⟨vb, s0, ov, nmi, fb, h⟩ := tickPixel_tickFlags_eq p
  simp only [ppuTick, h, tickBackground_withOutputs, advance_v, advance_bgLo, advance_bgHi, advance_atLo, advance_atHi,
    tickSprites_v, tickSprites_bgLo, tickSprites_bgHi, tickSprites_atLo, tickSprites_atHi]
  exact ⟨rfl, rfl, rfl, rfl, rfl⟩

/-! ## Where `v` moves (R289) -/

theorem tickShift_frame (c : Cart) (p : Ppu) :
    tickShift c p =
      { p with
        bgLo := (tickShift c p).bgLo
        bgHi := (tickShift c p).bgHi
        atLo := (tickShift c p).atLo
        atHi := (tickShift c p).atHi
        v := (tickShift c p).v } := by
  cases h : p.shiftDot with
  | false => rw [tickShift_hold h]
  | true =>
    by_cases h8 : p.cycle % 8 = 0
    · rw [tickShift_fetch h h8]
      rfl
    · rw [tickShift_shift h h8]
      rfl

/-- The dots at which a tile is fetched: every eighth of those that shift (R280). -/
def Ppu.FetchDot (p : Ppu) : Prop :=
  p.cycle % 8 = 0 ∧ (8 ≤ p.cycle ∧ p.cycle ≤ 256 ∨ 328 ≤ p.cycle ∧ p.cycle ≤ 336)

theorem fetchDot_iff : p.FetchDot ↔ p.shiftDot = true ∧ p.cycle % 8 = 0 := by
  rw [Ppu.FetchDot, shiftDot_iff]
  omega

theorem tickShift_v_fetch (h : p.FetchDot) : (tickShift c p).v = incCoarseX p.v := by
  obtain ⟨hs, h8⟩ := fetchDot_iff.mp h
  rw [tickShift_fetch hs h8]

theorem tickShift_v_hold (h : ¬ p.FetchDot) : (tickShift c p).v = p.v := by
  cases hs : p.shiftDot with
  | false => rw [tickShift_hold hs]
  | true =>
    rw [tickShift_shift hs fun h8 => h (fetchDot_iff.mpr ⟨hs, h8⟩)]
    rfl

/-- The dots of the pre-render line at which `v` is loaded from `t` (R289). -/
def Ppu.ReloadDot (p : Ppu) : Prop := p.scanline = 261 ∧ 280 ≤ p.cycle ∧ p.cycle ≤ 304

section

variable (hl : p.renderLine = true) (hr : p.rendering = true)

include hl hr

theorem tickBackground_v_reload (h : p.ReloadDot) : (tickBackground c p).v = p.t := by
  rw [tickBackground_on hl hr, tickScroll, tickShift_frame]
  exact if_pos h

theorem tickBackground_v (h : ¬ p.ReloadDot) :
    (tickBackground c p).v =
      if p.cycle = 256 then incY (tickShift c p).v
      else if p.cycle = 257 then copyX (tickShift c p).v p.t
      else (tickShift c p).v := by
  rw [tickBackground_on hl hr, tickScroll, tickShift_frame]
  refine (if_neg h).trans ?_
  dsimp only
  by_cases h6 : p.cycle = 256
  · rw [if_pos h6, if_pos h6, if_neg (by omega)]
  · rw [if_neg h6, if_neg h6]

end

/-- Settles O56: `v` after step C, dot by dot, and the two ways the registers move. -/
theorem renderingMovesVAtItsDots : Obligations.RenderingMovesVAtItsDots := by
  unfold Obligations.RenderingMovesVAtItsDots
  intro c p hr
  obtain ⟨ev, elo, ehi, eatlo, eathi⟩ := ppuTick_background c p
  intro q line fetchDot shiftDot reload
  have hline (h : line) : p.renderLine = true := renderLine_iff.mpr h
  have hhold (h : ¬ line) : tickBackground c p = p :=
    tickBackground_hold (by rw [Bool.eq_false_iff.mpr fun hl => h (renderLine_iff.mp hl), Bool.false_and])
  refine ⟨fun hl hf h6 => ?_, fun hl hx => ?_, fun hl hx => ?_, fun hre => ?_, fun h => ?_, fun hl hs hf => ?_,
    fun h => ?_⟩
  · have hre : ¬ p.ReloadDot := fun ⟨_, h⟩ => by omega
    rw [ev, tickBackground_v (hline hl) hr hre, if_neg h6, if_neg (by omega), tickShift_v_fetch hf]
  · have hre : ¬ p.ReloadDot := fun ⟨_, h⟩ => by omega
    rw [ev, tickBackground_v (hline hl) hr hre, if_pos hx, tickShift_v_fetch ⟨by omega, by omega⟩]
  · have hre : ¬ p.ReloadDot := fun ⟨_, h⟩ => by omega
    rw [ev, tickBackground_v (hline hl) hr hre, if_neg (by omega), if_pos hx, tickShift_v_hold fun ⟨h, _⟩ => by omega]
  · rw [ev, tickBackground_v_reload (hline (.inr hre.1)) hr hre]
  · by_cases hl : line
    · obtain ⟨hf, hx, hre⟩ := h.resolve_left (not_not.mpr hl)
      have h6 : p.cycle ≠ 256 := fun h => hf ⟨by omega, by omega⟩
      rw [ev, tickBackground_v (hline hl) hr hre, if_neg h6, if_neg hx, tickShift_v_hold hf]
    · rw [ev, hhold hl]
  · have hno : p.cycle % 8 ≠ 0 := fun h8 => hf (fetchDot_iff.mpr ⟨shiftDot_iff.mpr hs, h8⟩)
    rw [elo, ehi, eatlo, eathi, tickBackground_on (hline hl) hr, tickShift_shift (shiftDot_iff.mpr hs) hno]
    exact ⟨rfl, rfl, rfl, rfl⟩
  · rw [elo, ehi, eatlo, eathi]
    by_cases hl : line
    · have hno : ¬ shiftDot := h.resolve_left (not_not.mpr hl)
      have hs : p.shiftDot = false := Bool.eq_false_iff.mpr fun hs => hno (shiftDot_iff.mp hs)
      rw [tickBackground_on (hline hl) hr, tickShift_hold hs]
      exact ⟨rfl, rfl, rfl, rfl⟩
    · rw [hhold hl]
      exact ⟨rfl, rfl, rfl, rfl⟩

/-! ## The addresses of a tile fetch (R285) -/

/-- A pattern address as a bit string: table, tile, plane 0, row. -/
theorem patternAddr_eq_append (table : Bool) (tile : Byte) (row : BitVec 3) :
    patternAddr table tile row = (BitVec.ofBool table ++ tile ++ row.setWidth 4 : BitVec 13).setWidth 14 := by
  rw [BitVec.setWidth_append_append_eq_shiftLeft_setWidth_or, BitVec.setWidth_setWidth (by decide), patternAddr]

theorem patternAddr_toNat (table : Bool) (tile : Byte) (row : BitVec 3) :
    (patternAddr table tile row).toNat = (if table then 0x1000 else 0) + 16 * tile.toNat + row.toNat := by
  have ht := tile.isLt
  have hr := row.isLt
  rw [patternAddr_eq_append, BitVec.toNat_setWidth, toNat_append_eq, toNat_append_eq, BitVec.toNat_setWidth]
  cases table
  · simp
    omega
  · simp
    omega

/-- The address of a row of a tile as a number, in plane 0. -/
theorem patternAddr_eq (table : Bool) (tile : Byte) (row : BitVec 3) :
    patternAddr table tile row = BitVec.ofNat 14 ((if table then 0x1000 else 0) + 16 * tile.toNat + row.toNat) := by
  rw [← patternAddr_toNat, BitVec.ofNat_toNat, BitVec.setWidth_eq]

/-- The same row in plane 1. -/
theorem patternAddr_add_eight (table : Bool) (tile : Byte) (row : BitVec 3) :
    patternAddr table tile row + 8 =
      BitVec.ofNat 14 ((if table then 0x1000 else 0) + 16 * tile.toNat + row.toNat + 8) := by
  rw [BitVec.ofNat_add, ← patternAddr_eq]
  rfl

/-- A tile address as a bit string: the nametables' region, and twelve bits of `v`. -/
theorem tileAddr_eq_append (v : Scroll) : tileAddr v = (2#2 ++ v.setWidth 12 : BitVec 14) := by
  have hregion : 0x2000#14 = (2#2 ++ 0#12 : BitVec 14) := by decide
  have hlow : (v.setWidth 12).setWidth 14 = (0#2 ++ v.setWidth 12 : BitVec 14) := BitVec.setWidth_eq_append (by decide)
  rw [tileAddr, hregion, hlow, BitVec.or_append, BitVec.or_zero, BitVec.zero_or]

theorem tileAddr_eq (v : Scroll) : tileAddr v = BitVec.ofNat 14 (0x2000 + v.toNat % 4096) := by
  apply BitVec.eq_of_toNat_eq
  rw [tileAddr_eq_append, toNat_append_eq, BitVec.toNat_setWidth, BitVec.toNat_ofNat, BitVec.toNat_ofNat]
  omega

/-- An AT address as a bit string: the table, the offset 0x3C0, and the tile's block of four by four. -/
theorem attrAddr_eq_append (v : Scroll) :
    attrAddr v = (2#2 ++ v.extractLsb' 10 2 ++ 15#4 ++ v.extractLsb' 7 3 ++ v.extractLsb' 2 3 : BitVec 14) := by
  apply BitVec.eq_of_getLsbD_eq
  intro i hi
  rw [attrAddr, BitVec.getLsbD_append, BitVec.getLsbD_append, BitVec.getLsbD_append, BitVec.getLsbD_append]
  interval_cases i <;> simp

theorem attrAddr_eq (v : Scroll) :
    attrAddr v =
      BitVec.ofNat 14
        (0x2000 + 1024 * (v.toNat / 1024 % 4) + 0x3C0 + 8 * (v.toNat / 32 % 32 / 4) + v.toNat % 32 / 4) := by
  have hblockY : v.toNat / 32 % 32 / 4 = v.toNat / 128 % 8 := by omega
  have hblockX : v.toNat % 32 / 4 = v.toNat / 4 % 8 := by omega
  apply BitVec.eq_of_toNat_eq
  rw [attrAddr_eq_append, hblockY, hblockX]
  simp only [toNat_append_eq, BitVec.extractLsb'_toNat, Nat.shiftRight_eq_div_pow, BitVec.toNat_ofNat, Nat.reducePow]
  omega

/-- The quadrant of the tile in its block of tiles (R285). -/
theorem attrShift_eq (v : Scroll) :
    attrShift v = 4 * (v.toNat / 32 % 32 / 2 % 2) + 2 * (v.toNat % 32 / 2 % 2) := by
  rw [attrShift, getLsbD_toNat, getLsbD_toNat]
  omega

/-! ## What a tile fetch loads (R285) -/

/-- A register after a shift and a load of its low byte. -/
theorem loadLow_shiftLeft (r : BitVec 16) (b : Byte) : loadLow (r <<< 1) b = (r.extractLsb' 7 8 ++ b : BitVec 16) := by
  apply BitVec.eq_of_getLsbD_eq
  intro i hi
  have hm := pageMask_bit i hi
  simp only [loadLow, BitVec.ofNat_eq_ofNat, BitVec.getLsbD_append, BitVec.getLsbD_or, BitVec.getLsbD_and, hm,
    BitVec.getLsbD_shiftLeft, BitVec.getLsbD_setWidth, BitVec.getLsbD_extractLsb']
  by_cases h8 : i < 8
  · have h8' : ¬ 8 ≤ i := by omega
    simp [h8, h8', hi]
  · have h8' : 8 ≤ i := by omega
    have hpos : 7 + (i - 8) = i - 1 := by omega
    have hsub : i - 8 < 8 := by omega
    have h1 : ¬ i < 1 := by omega
    simp [h8, h8', hi, hpos, hsub, h1]

/-- The tile number at `v`. -/
def tileByte (c : Cart) (p : Ppu) : Byte := ppuRead c p (tileAddr p.v)

/-- The AT byte at `v`. -/
def attrByte (c : Cart) (p : Ppu) : Byte := ppuRead c p (attrAddr p.v)

/-- The registers after a fetch dot, in the order R285 reads: the two planes, then the two AT bits. -/
theorem tickBackground_fetch (hl : p.renderLine = true) (hr : p.rendering = true) (h : p.FetchDot) :
    (tickBackground c p).bgLo =
      loadLow (p.bgLo <<< 1) (ppuRead c p (patternAddr p.bgTable (tileByte c p) (fineY p.v))) ∧
    (tickBackground c p).bgHi =
      loadLow (p.bgHi <<< 1) (ppuRead c p (patternAddr p.bgTable (tileByte c p) (fineY p.v) + 8)) ∧
    (tickBackground c p).atLo =
      loadLow (p.atLo <<< 1) (if (attrByte c p >>> attrShift p.v).getLsbD 0 then 0xFF else 0x00) ∧
    (tickBackground c p).atHi =
      loadLow (p.atHi <<< 1) (if (attrByte c p >>> attrShift p.v).getLsbD 1 then 0xFF else 0x00) := by
  obtain ⟨hs, h8⟩ := fetchDot_iff.mp h
  rw [tickBackground_on hl hr, tickShift_fetch hs h8]
  exact ⟨rfl, rfl, rfl, rfl⟩

/-- Settles O57: a fetch dot shifts, then loads, all with `v` of before; the addresses and the quadrant as numbers. -/
theorem tileFetchLoadsTheNextTile : Obligations.TileFetchLoadsTheNextTile := by
  unfold Obligations.TileFetchLoadsTheNextTile
  intro c p hr hline h8 hdot
  obtain ⟨-, elo, ehi, eatlo, eathi⟩ := ppuTick_background c p
  obtain ⟨hlo, hhi, hatlo, hathi⟩ := tickBackground_fetch (c := c) (renderLine_iff.mpr hline) hr ⟨h8, hdot⟩
  intro q n x y table tile attr shift pa takes
  have htile : tile = tileByte c p := congrArg (ppuRead c p) (tileAddr_eq p.v).symm
  have hattr : attr = attrByte c p := congrArg (ppuRead c p) (attrAddr_eq p.v).symm
  have hshift : shift = attrShift p.v := (attrShift_eq p.v).symm
  have hfine : (fineY p.v).toNat = n / 4096 := by
    have hv := p.v.isLt
    rw [fineY_toNat]
    omega
  have hplane0 : patternAddr p.bgTable (tileByte c p) (fineY p.v) = BitVec.ofNat 14 pa := by
    rw [patternAddr_eq, hfine, ← htile]
    rfl
  have hplane1 : patternAddr p.bgTable (tileByte c p) (fineY p.v) + 8 = BitVec.ofNat 14 (pa + 8) := by
    rw [patternAddr_add_eight, hfine, ← htile]
    rfl
  refine ⟨?_, ?_, ?_, ?_⟩
  · exact elo.trans (hlo.trans ((loadLow_shiftLeft _ _).trans (by rw [hplane0])))
  · exact ehi.trans (hhi.trans ((loadLow_shiftLeft _ _).trans (by rw [hplane1])))
  · exact eatlo.trans (hatlo.trans ((loadLow_shiftLeft _ _).trans
      (by rw [hattr, hshift, BitVec.getLsbD_ushiftRight]; rfl)))
  · exact eathi.trans (hathi.trans ((loadLow_shiftLeft _ _).trans
      (by rw [hattr, hshift, BitVec.getLsbD_ushiftRight])))

end Sys2Proof.Machine
end

section
/-! PROOF. The pixel of a dot (R292 to R295): the background's and the sprites' at a column, and the two merged by
priority. -/

namespace Sys2Proof.Machine

variable {c : Cart} {p : Ppu} {x : Nat} {u : SpriteUnit} {us : List SpriteUnit}

/-! ## The pixels of a column (R292, R293) -/

theorem planes_toNat (hi lo : Bool) : (planes hi lo).toNat = 2 * hi.toNat + lo.toNat := by
  cases hi <;> cases lo <;> rfl

theorem bgPixel_hidden (h : p.showBg = false ∨ x < 8 ∧ p.bgLeft = false) : bgPixel p x = { px := 0, pal := 0 } :=
  if_pos h

/-- The background's tap, at bit `15 - fine x` of the four registers. -/
theorem bgPixel_shown (h : ¬ (p.showBg = false ∨ x < 8 ∧ p.bgLeft = false)) :
    bgPixel p x =
      { px := planes (p.bgHi.getLsbD (15 - p.fineX.toNat)) (p.bgLo.getLsbD (15 - p.fineX.toNat))
        pal := planes (p.atHi.getLsbD (15 - p.fineX.toNat)) (p.atLo.getLsbD (15 - p.fineX.toNat)) } :=
  if_neg h

/-- The value a unit shows at a column, as a number. -/
theorem unitPixel_toNat (u : SpriteUnit) (x : Nat) :
    (unitPixel u x).toNat =
      if u.x.toNat ≤ x ∧ x < u.x.toNat + 8 then
        2 * (u.hi.getLsbD (if u.flipH then x - u.x.toNat else 7 - (x - u.x.toNat))).toNat +
          (u.lo.getLsbD (if u.flipH then x - u.x.toNat else 7 - (x - u.x.toNat))).toNat
      else 0 := by
  unfold unitPixel
  by_cases h : u.x.toNat ≤ x ∧ x < u.x.toNat + 8
  · rw [if_pos (by omega), if_pos h, planes_toNat]
  · rw [if_neg (by omega), if_neg h]
    rfl

theorem unitPixel_eq_zero_iff : unitPixel u x = 0 ↔ (unitPixel u x).toNat = 0 := BitVec.toNat_inj.symm

/-- A transparent unit does not hide a later one. -/
theorem firstOpaque_append {before : List SpriteUnit} (h : ∀ w ∈ before, unitPixel w x = 0) :
    firstOpaque (before ++ us) x = firstOpaque us x := by
  induction before with
  | nil => rfl
  | cons w before ih =>
    have hw : unitPixel w x = 0 := h w (List.mem_cons_self ..)
    rw [List.cons_append, firstOpaque, if_neg (not_not.mpr hw)]
    exact ih fun w hw => h w (List.mem_cons_of_mem _ hw)

theorem firstOpaque_eq_none (h : ∀ w ∈ us, unitPixel w x = 0) : firstOpaque us x = none := by
  have happ := firstOpaque_append (us := []) h
  rwa [List.append_nil] at happ

/-- Settles O54: the tap by its bits, the sprite pixel by an induction over the units before it. -/
theorem spritePixelIsTheFirstOpaqueUnit : Obligations.SpritePixelIsTheFirstOpaqueUnit := by
  unfold Obligations.SpritePixelIsTheFirstOpaqueUnit
  intro p x bit bgHidden sprHidden value
  have hvalue (u : SpriteUnit) : value u = (unitPixel u x).toNat := (unitPixel_toNat u x).symm
  have hzero {us : List SpriteUnit} (h : ∀ w ∈ us, value w = 0) : ∀ w ∈ us, unitPixel w x = 0 := fun w hw =>
    unitPixel_eq_zero_iff.mpr ((hvalue w).symm.trans (h w hw))
  have hshown (h : ¬ sprHidden) : sprPixel p x = firstOpaque p.units x := if_neg h
  refine ⟨fun h => ?_, fun h => ?_, fun h => if_pos h, fun h hall => ?_, fun h before u rest hu hbefore hne => ?_⟩
  · rw [bgPixel_hidden h]
  · rw [bgPixel_shown h]
    exact ⟨planes_toNat _ _, planes_toNat _ _⟩
  · rw [hshown h, firstOpaque_eq_none (hzero hall)]
  · have hopaque : unitPixel u x ≠ 0 := fun e => hne ((hvalue u).trans (unitPixel_eq_zero_iff.mp e))
    rw [hshown h, hu, firstOpaque_append (hzero hbefore), firstOpaque, if_pos hopaque]
    exact ⟨_, rfl, (hvalue u).symm, rfl, rfl, rfl⟩

/-! ## The merged pixel (R294) -/

theorem bgIndex_transparent {b : BgPixel} (h : b.px = 0) : (bgIndex b).toNat = 0 := by
  rw [bgIndex, if_pos h]
  rfl

theorem bgIndex_opaque {b : BgPixel} (h : b.px ≠ 0) : (bgIndex b).toNat = 4 * b.pal.toNat + b.px.toNat := by
  rw [bgIndex, if_neg h, toNat_append_eq, toNat_append_eq, BitVec.toNat_ofNat, Nat.zero_mod]
  omega

theorem sprIndex_toNat (sp : SprPixel) : (sprIndex sp).toNat = 4 * sp.pal.toNat + sp.px.toNat := by
  rw [sprIndex, toNat_append_eq]
  omega

/-- The address of a palette entry as a number. -/
theorem paletteAddr_eq (idx : BitVec 5) : 0x3F00#14 ||| idx.setWidth 14 = BitVec.ofNat 14 (0x3F00 + idx.toNat) := by
  have hbase : 0x3F00#14 = (504#9 ++ 0#5 : BitVec 14) := by decide
  have hlow : idx.setWidth 14 = (0#9 ++ idx : BitVec 14) := BitVec.setWidth_eq_append (by decide)
  have hi := idx.isLt
  apply BitVec.eq_of_toNat_eq
  rw [hbase, hlow, BitVec.or_append, BitVec.or_zero, BitVec.zero_or, toNat_append_eq, BitVec.toNat_ofNat,
    BitVec.toNat_ofNat]
  omega

/-- The pixel a visible dot writes (R294, R295). -/
theorem ppuTick_framebuffer_visible (c : Cart) (hy : p.scanline ≤ 239) (h1 : 1 ≤ p.cycle) (h2 : p.cycle ≤ 256) :
    (ppuTick c p).framebuffer =
      p.framebuffer.write (256 * p.scanline + (p.cycle - 1))
        ((p.pal.read (palIndex p (BitVec.ofNat 14
          (0x3F00 + (mergeIndex (bgPixel p (p.cycle - 1)) (sprPixel p (p.cycle - 1))).toNat)))).setWidth 6) := by
  rw [ppuTick_framebuffer_eq, tickFlags_visible hy, tickPixel_visible hy h1 h2, emitPixel, paletteAddr_eq]

/-- Sprite-0 hit after a visible dot. -/
theorem ppuTick_sprite0_visible (c : Cart) (hy : p.scanline ≤ 239) (h1 : 1 ≤ p.cycle) (h2 : p.cycle ≤ 256) :
    (ppuTick c p).sprite0 =
      (p.sprite0 || sprite0Hit (bgPixel p (p.cycle - 1)) (sprPixel p (p.cycle - 1)) (p.cycle - 1)) := by
  rw [ppuTick_sprite0, tickFlags_visible hy, tickPixel_visible hy h1 h2, emitPixel]

theorem sprite0Hit_iff {b : BgPixel} {sp : Option SprPixel} :
    sprite0Hit b sp x = true ↔ b.px ≠ 0 ∧ x ≠ 255 ∧ ∃ s, sp = some s ∧ s.isZero = true := by
  cases sp with
  | none => simp [sprite0Hit]
  | some s =>
    simp only [sprite0Hit, Bool.and_eq_true, bne_iff_ne, Option.some.injEq, exists_eq_left', and_assoc, ne_eq]
    exact and_congr_right fun _ => and_comm

/-- Settles O53: the entry of the merged pixel in each case of the priority. -/
theorem aVisibleDotEmitsTheMergedPixel : Obligations.AVisibleDotEmitsTheMergedPixel := by
  unfold Obligations.AVisibleDotEmitsTheMergedPixel
  intro c p hy h1 h2 x b q shows
  have hshows {entry : Nat} (h : (mergeIndex b (sprPixel p x)).toNat = entry) : shows entry :=
    h ▸ ppuTick_framebuffer_visible c hy h1 h2
  refine ⟨fun hb hs => hshows ?_, fun hb hs => hshows ?_,
    fun sp hs => ⟨fun hb hbehind => hshows ?_, fun hfront => hshows ?_⟩, ?_⟩
  · rw [hs]
    exact bgIndex_transparent hb
  · rw [hs]
    exact bgIndex_opaque hb
  · rw [hs, mergeIndex, if_neg hb, if_pos hbehind]
    exact bgIndex_opaque hb
  · have hspr : mergeIndex b (some sp) = sprIndex sp := by
      rw [mergeIndex]
      by_cases hb : b.px = 0
      · rw [if_pos hb]
      · rw [if_neg hb, hfront.resolve_left hb]
        rfl
    rw [hs, hspr, sprIndex_toNat]
  · rw [ppuTick_sprite0_visible c hy h1 h2, Bool.or_eq_true, sprite0Hit_iff]

end Sys2Proof.Machine
end

section
/-! PROOF. The sprites of a line (R290, R291): evaluation over the 64 dots from 65, and the fetch over the 64 dots from
257, each as an induction over the dots. -/

namespace Sys2Proof.Machine

variable {c : Cart} {p q : Ppu} {k n : Nat}

/-! ## Dots of one line -/

/-- `q` is `k` dots after `p` on the same line, and holds the registers and memories that no dot writes. -/
structure DotsLater (k : Nat) (p q : Ppu) : Prop where
  scanline : q.scanline = p.scanline
  cycle : q.cycle = p.cycle + k
  control : q.control = p.control
  mask : q.mask = p.mask
  oam : q.oam = p.oam
  nt : q.nt = p.nt
  pal : q.pal = p.pal

theorem dotsLater_ticks (c : Cart) (h : p.cycle + k ≤ 340) : DotsLater k p (ppuTicks c k p) := by
  induction k with
  | zero => exact ⟨rfl, rfl, rfl, rfl, rfl, rfl, rfl⟩
  | succ k ih =>
    have hk := ih (by omega)
    obtain ⟨hy, hx, -⟩ := ppuTick_position c (ppuTicks c k p)
    obtain ⟨hcontrol, hmask, -, -, -, -, -, hoam, hnt, hpal⟩ := ppuTick_frame c (ppuTicks c k p)
    have hcycle := hk.cycle
    rcases advance_cases (ppuTicks c k p) with ⟨hlast, -⟩ | ⟨-, ax, ay⟩
    · omega
    · rw [ppuTicks_succ]
      exact ⟨hy.trans (ay.trans hk.scanline), hx.trans (by omega), hcontrol.trans hk.control, hmask.trans hk.mask,
        hoam.trans hk.oam, hnt.trans hk.nt, hpal.trans hk.pal⟩

theorem DotsLater.rendering (h : DotsLater k p q) : q.rendering = p.rendering := by
  simp only [Ppu.rendering, Ppu.showBg, Ppu.showSpr, h.mask]

/-! ## Evaluation (R290) -/

/-- The sprite's row on this scanline lies in 0 to 7. -/
def Ppu.onLine (p : Ppu) (n : Nat) : Bool :=
  decide ((p.oam.read (4 * n)).toNat ≤ p.scanline ∧ p.scanline ≤ (p.oam.read (4 * n)).toNat + 7)

/-- Secondary OAM as an evaluating dot finds it: dot 65 empties it first. -/
def Ppu.secSeen (p : Ppu) : List (BitVec 6) := if p.cycle = 65 then [] else p.sec

theorem evalSprite_eq (p : Ppu) (n : BitVec 6) :
    evalSprite p n =
      { p with
        sec := if p.onLine n.toNat = true ∧ p.sec.length < 8 then p.sec ++ [n] else p.sec
        overflow := p.overflow || (p.onLine n.toNat && decide (8 ≤ p.sec.length)) } := by
  have hrow : (p.oam.read (4 * n.toNat)).toNat ≤ p.scanline ∧ p.scanline - (p.oam.read (4 * n.toNat)).toNat ≤ 7 ↔
      p.onLine n.toNat = true := by
    rw [Ppu.onLine, decide_eq_true_iff]
    omega
  unfold evalSprite
  dsimp only
  rw [if_congr hrow rfl rfl]
  cases p.onLine n.toNat with
  | false => simp
  | true =>
    by_cases hfull : p.sec.length < 8
    · have : ¬ 8 ≤ p.sec.length := by omega
      simp [hfull, this]
    · have : 8 ≤ p.sec.length := by omega
      simp [hfull, this]

theorem tickEvaluate_idle (h : p.cycle < 65 ∨ 128 < p.cycle) : tickEvaluate p = p := by
  have h65 : p.cycle ≠ 65 := by omega
  rw [tickEvaluate, if_neg h65]
  exact if_neg (by omega)

theorem tickEvaluate_on (h1 : 65 ≤ p.cycle) (h2 : p.cycle ≤ 128) :
    tickEvaluate p = evalSprite { p with sec := p.secSeen } (BitVec.ofNat 6 (p.cycle - 65)) := by
  have hq : (if p.cycle = 65 then { p with sec := [] } else p) = { p with sec := p.secSeen } := by
    unfold Ppu.secSeen
    split <;> rfl
  rw [tickEvaluate, hq]
  exact if_pos ⟨h1, h2⟩

theorem tickFetchSprite_overflow : (tickFetchSprite c p).overflow = p.overflow := by rw [tickFetchSprite_frame]

theorem dropUnits_of_ne (h : p.cycle ≠ 257) : dropUnits p = p := by rw [dropUnits, if_neg h]

theorem onLine_congr (hoam : q.oam = p.oam) (hy : q.scanline = p.scanline) (n : Nat) : q.onLine n = p.onLine n := by
  rw [Ppu.onLine, Ppu.onLine, hoam, hy]

/-- Step D of a dot of evaluation: sprite `n` at dot `65 + n`. -/
theorem tickSprites_evaluate (hy : p.scanline ≤ 239) (hr : p.rendering = true) (hx : p.cycle = 65 + n) (hn : n < 64) :
    (tickSprites c p).sec =
      (if p.onLine n = true ∧ p.secSeen.length < 8 then p.secSeen ++ [BitVec.ofNat 6 n] else p.secSeen) ∧
    (tickSprites c p).overflow = (p.overflow || (p.onLine n && decide (8 ≤ p.secSeen.length))) := by
  have hidx : p.cycle - 65 = n := by omega
  have hn64 : (BitVec.ofNat 6 n).toNat = n := (BitVec.toNat_ofNat n 6).trans (Nat.mod_eq_of_lt hn)
  rw [tickSprites_on hy hr, tickFetchSprite_sec, tickFetchSprite_overflow, dropUnits_of_ne (by omega),
    tickEvaluate_on (by omega) (by omega), evalSprite_eq, hidx, hn64]
  exact ⟨rfl, rfl⟩

/-- One dot of evaluation. -/
theorem ppuTick_evaluate (c : Cart) (hy : p.scanline ≤ 239) (hr : p.rendering = true) (hx : p.cycle = 65 + n)
    (hn : n < 64) :
    (ppuTick c p).sec =
      (if p.onLine n = true ∧ p.secSeen.length < 8 then p.secSeen ++ [BitVec.ofNat 6 n] else p.secSeen) ∧
    (ppuTick c p).overflow = (p.overflow || (p.onLine n && decide (8 ≤ p.secSeen.length))) := by
  have hstep := tickSprites_evaluate (c := c) (p := tickBackground c (tickPixel p)) (n := n) (by simpa) (by simpa)
    (by simpa) hn
  have hline : (tickBackground c (tickPixel p)).onLine n = p.onLine n := onLine_congr (by simp) (by simp) n
  have hsec : (tickBackground c (tickPixel p)).secSeen = p.secSeen := by simp [Ppu.secSeen]
  rw [hline, hsec, tickBackground_overflow, tickPixel_overflow] at hstep
  rwa [ppuTick, tickFlags_visible hy, advance_sec, advance_overflow]

/-- The sprites among the first `k` that are on the line, in OAM order. -/
def Ppu.spritesOnLine (p : Ppu) (k : Nat) : List Nat := (List.range k).filter p.onLine

theorem spritesOnLine_succ (p : Ppu) (k : Nat) :
    p.spritesOnLine (k + 1) = p.spritesOnLine k ++ if p.onLine k = true then [k] else [] := by
  rw [Ppu.spritesOnLine, List.range_succ, List.filter_append, List.filter_singleton, cond_eq_ite,
    Ppu.spritesOnLine]

/-- The first eight of a list with an element put at its end. -/
theorem take_eight_concat {α : Type} (l : List α) (a : α) :
    (l ++ [a]).take 8 = if (l.take 8).length < 8 then l.take 8 ++ [a] else l.take 8 := by
  rw [List.length_take]
  by_cases h : l.length < 8
  · rw [if_pos (by omega), List.take_of_length_le (by simp; omega), List.take_of_length_le (by omega)]
  · rw [if_neg (by omega), List.take_append_of_le_length (by omega)]

/-- Evaluation after `k` of its dots: the first eight of the sprites found, and overflow if there were more. -/
theorem evaluated_ticks (c : Cart) (hy : p.scanline ≤ 239) (hx : p.cycle = 65) (hr : p.rendering = true) (hk : k ≤ 64) :
    (ppuTicks c k p).secSeen = ((p.spritesOnLine k).take 8).map (BitVec.ofNat 6) ∧
    (ppuTicks c k p).overflow = (p.overflow || decide (8 < (p.spritesOnLine k).length)) := by
  induction k with
  | zero => exact ⟨if_pos hx, (Bool.or_false _).symm⟩
  | succ k ih =>
    obtain ⟨hsec, hover⟩ := ih (by omega)
    have hq := dotsLater_ticks c (p := p) (k := k) (by omega)
    have hq' := dotsLater_ticks c (p := p) (k := k + 1) (by omega)
    have hseen : (ppuTicks c (k + 1) p).secSeen = (ppuTicks c (k + 1) p).sec := if_neg (by have := hq'.cycle; omega)
    obtain ⟨hsec', hover'⟩ := ppuTick_evaluate c (p := ppuTicks c k p) (n := k) (by rwa [hq.scanline])
      (by rwa [hq.rendering]) (by rw [hq.cycle, hx]) (by omega)
    rw [onLine_congr hq.oam hq.scanline, hsec] at hsec' hover'
    rw [hseen, ppuTicks_succ, hsec', hover', hover, spritesOnLine_succ]
    cases p.onLine k with
    | false => simp
    | true =>
      generalize p.spritesOnLine k = l
      have htake := List.length_take (i := 8) (l := l)
      rw [if_pos rfl, take_eight_concat, List.length_map, List.length_append, List.length_singleton]
      refine ⟨?_, ?_⟩
      · by_cases hfull : (l.take 8).length < 8
        · rw [if_pos ⟨rfl, hfull⟩, if_pos hfull, List.map_append, List.map_singleton]
        · rw [if_neg fun h => hfull h.2, if_neg hfull]
      · rw [Bool.or_assoc, Bool.true_and, ← Bool.decide_or]
        exact congrArg (p.overflow || ·) (decide_eq_decide.mpr (by omega))

/-- Settles O51: the 64 dots from 65 are one sprite each, in OAM order. -/
theorem evaluationSelectsTheFirstEightSprites : Obligations.EvaluationSelectsTheFirstEightSprites := by
  unfold Obligations.EvaluationSelectsTheFirstEightSprites
  intro c p hy hx hr
  obtain ⟨hsec, hover⟩ := evaluated_ticks c hy hx hr (Nat.le_refl 64)
  have hcycle := (dotsLater_ticks c (p := p) (k := 64) (by omega)).cycle
  have hseen : (ppuTicks c 64 p).secSeen = (ppuTicks c 64 p).sec := if_neg (by omega)
  exact ⟨hseen ▸ hsec, hover⟩

/-! ## The fetch (R291) -/

/-- What the unit of a sprite depends on. -/
theorem spriteUnit_congr (hoam : q.oam = p.oam) (hy : q.scanline = p.scanline) (hc : q.control = p.control)
    (hm : q.mask = p.mask) (hn : q.nt = p.nt) (hp : q.pal = p.pal) : spriteUnit c q = spriteUnit c p := by
  funext n
  simp only [spriteUnit, Ppu.sprTable, hoam, hy, hc, ppuRead_congr c _ hn hp hm]

theorem DotsLater.spriteUnit (h : DotsLater k p q) : spriteUnit c q = spriteUnit c p :=
  spriteUnit_congr h.oam h.scanline h.control h.mask h.nt h.pal

/-- The units that slot `k` adds: one, or none when fewer sprites were selected. -/
theorem fetchSprite_units (c : Cart) (p : Ppu) (k : Nat) :
    (fetchSprite c p k).units = p.units ++ p.sec[k]?.toList.map (spriteUnit c p) := by
  unfold fetchSprite
  cases p.sec[k]? with
  | none => exact (List.append_nil _).symm
  | some n => rfl

theorem tickFetchSprite_units (hx : p.cycle = 257 + k) (hk : k < 64) :
    (tickFetchSprite c p).units =
      p.units ++ (if k % 8 = 0 then p.sec[k / 8]?.toList else []).map (spriteUnit c p) := by
  have hidx : p.cycle - 257 = k := by omega
  rw [tickFetchSprite, hidx]
  by_cases h8 : k % 8 = 0
  · rw [if_pos ⟨by omega, by omega, h8⟩, if_pos h8, fetchSprite_units]
  · rw [if_neg fun ⟨_, _, h⟩ => h8 h, if_neg h8, List.map_nil, List.append_nil]

/-- One dot of the fetch: slot `k / 8` at every eighth dot, and secondary OAM stays. -/
theorem ppuTick_fetchSprite (c : Cart) (hy : p.scanline ≤ 239) (hr : p.rendering = true) (hx : p.cycle = 257 + k)
    (hk : k < 64) :
    (ppuTick c p).sec = p.sec ∧
    (ppuTick c p).units =
      (dropUnits p).units ++ (if k % 8 = 0 then p.sec[k / 8]?.toList else []).map (spriteUnit c p) := by
  have hunit : spriteUnit c (dropUnits (tickBackground c (tickPixel p))) = spriteUnit c p :=
    spriteUnit_congr (by simp [dropUnits]) (by simp [dropUnits]) (by simp [dropUnits]) (by simp [dropUnits])
      (by simp [dropUnits]) (by simp [dropUnits])
  have hidle : tickEvaluate (dropUnits (tickBackground c (tickPixel p))) = dropUnits (tickBackground c (tickPixel p)) :=
    tickEvaluate_idle (.inr (by simp [dropUnits, hx]; omega))
  have hcycle : (dropUnits (tickBackground c (tickPixel p))).cycle = 257 + k := by simpa [dropUnits] using hx
  rw [ppuTick, tickFlags_visible hy, advance_sec, advance_units, tickSprites_on (by simpa) (by simpa), hidle,
    tickFetchSprite_sec, tickFetchSprite_units hcycle hk, hunit]
  simp [dropUnits]

/-- The fetch after `k` of its dots: the units of the slots begun so far. -/
theorem fetched_ticks (c : Cart) (hy : p.scanline ≤ 239) (hx : p.cycle = 257) (hr : p.rendering = true) (hk : k ≤ 64) :
    (ppuTicks c k p).sec = p.sec ∧
    (dropUnits (ppuTicks c k p)).units = (p.sec.take ((k + 7) / 8)).map (spriteUnit c p) := by
  induction k with
  | zero => exact ⟨rfl, if_pos hx⟩
  | succ k ih =>
    obtain ⟨hsec, hunits⟩ := ih (by omega)
    have hq := dotsLater_ticks c (p := p) (k := k) (by omega)
    have hcycle := (dotsLater_ticks c (p := p) (k := k + 1) (by omega)).cycle
    obtain ⟨hsec', hunits'⟩ := ppuTick_fetchSprite c (p := ppuTicks c k p) (k := k) (by rwa [hq.scanline])
      (by rwa [hq.rendering]) (by rw [hq.cycle, hx]) (by omega)
    rw [hunits, hq.spriteUnit, hsec, ← List.map_append] at hunits'
    refine ⟨by rw [ppuTicks_succ, hsec', hsec], ?_⟩
    rw [dropUnits_of_ne (by omega), ppuTicks_succ, hunits']
    by_cases h8 : k % 8 = 0
    · have hslot : (k + 7) / 8 = k / 8 := by omega
      have hnext : (k + 1 + 7) / 8 = k / 8 + 1 := by omega
      rw [if_pos h8, hslot, hnext, List.take_add_one]
    · have hsame : (k + 1 + 7) / 8 = (k + 7) / 8 := by omega
      rw [if_neg h8, hsame, List.append_nil]

/-- The bytes of sprite `n` (R268). -/
def Ppu.spriteByte (p : Ppu) (n : BitVec 6) (k : Nat) : Byte := p.oam.read (4 * n.toNat + k)

/-- The row of the sprite that is on the scanline, mirrored when the sprite is flipped. -/
def Ppu.spriteRow (p : Ppu) (n : BitVec 6) : BitVec 3 :=
  if (p.spriteByte n 2).getLsbD 7 then 7 - (BitVec.ofNat 8 p.scanline - p.spriteByte n 0).setWidth 3
  else (BitVec.ofNat 8 p.scanline - p.spriteByte n 0).setWidth 3

theorem spriteRow_toNat (hy : p.scanline ≤ 239) (n : BitVec 6) :
    (p.spriteRow n).toNat =
      if (p.spriteByte n 2).getLsbD 7 then 7 - (p.scanline + 256 - (p.spriteByte n 0).toNat) % 8
      else (p.scanline + 256 - (p.spriteByte n 0).toNat) % 8 := by
  have hrow : ((BitVec.ofNat 8 p.scanline - p.spriteByte n 0).setWidth 3).toNat =
      (p.scanline + 256 - (p.spriteByte n 0).toNat) % 8 := by
    have hb := (p.spriteByte n 0).isLt
    rw [BitVec.toNat_setWidth, BitVec.toNat_sub, BitVec.toNat_ofNat]
    omega
  unfold Ppu.spriteRow
  split
  · rw [BitVec.toNat_sub, hrow]
    have h7 : (7 : BitVec 3).toNat = 7 := rfl
    omega
  · exact hrow

/-- The unit of a sprite, with its pattern address as a number (R291). -/
theorem spriteUnit_eq (c : Cart) (p : Ppu) (n : BitVec 6) :
    spriteUnit c p n =
      { lo := ppuRead c p (BitVec.ofNat 14 ((if p.control.getLsbD 3 then 0x1000 else 0) +
          16 * (p.spriteByte n 1).toNat + (p.spriteRow n).toNat))
        hi := ppuRead c p (BitVec.ofNat 14 ((if p.control.getLsbD 3 then 0x1000 else 0) +
          16 * (p.spriteByte n 1).toNat + (p.spriteRow n).toNat + 8))
        x := p.spriteByte n 3
        palette := BitVec.ofNat 3 (4 + (p.spriteByte n 2).toNat % 4)
        flipH := (p.spriteByte n 2).getLsbD 6
        behind := (p.spriteByte n 2).getLsbD 5
        isZero := decide (n = 0) } := by
  have hpal : (1#1 ++ (p.spriteByte n 2).extractLsb' 0 2 : BitVec 3) =
      BitVec.ofNat 3 (4 + (p.spriteByte n 2).toNat % 4) := by
    apply BitVec.eq_of_toNat_eq
    rw [toNat_append_eq, BitVec.extractLsb'_toNat, BitVec.toNat_ofNat, BitVec.toNat_ofNat, Nat.shiftRight_zero]
    omega
  have hunit : spriteUnit c p n =
      { lo := ppuRead c p (patternAddr p.sprTable (p.spriteByte n 1) (p.spriteRow n))
        hi := ppuRead c p (patternAddr p.sprTable (p.spriteByte n 1) (p.spriteRow n) + 8)
        x := p.spriteByte n 3
        palette := (1#1 ++ (p.spriteByte n 2).extractLsb' 0 2 : BitVec 3)
        flipH := (p.spriteByte n 2).getLsbD 6
        behind := (p.spriteByte n 2).getLsbD 5
        isZero := n == 0 } := rfl
  rw [hunit, patternAddr_add_eight, patternAddr_eq, hpal, beq_eq_decide, Ppu.sprTable]

/-- Settles O52: the 64 dots fetch the eight slots in order, and a slot without a sprite adds no unit. -/
theorem spriteFetchFillsTheUnits : Obligations.SpriteFetchFillsTheUnits := by
  unfold Obligations.SpriteFetchFillsTheUnits
  intro c p hy hx hr hlen
  obtain ⟨-, hunits⟩ := fetched_ticks c hy hx hr (Nat.le_refl 64)
  have hcycle := (dotsLater_ticks c (p := p) (k := 64) (by omega)).cycle
  rw [dropUnits_of_ne (by omega), List.take_of_length_le hlen] at hunits
  rw [hunits]
  refine List.map_congr_left fun n _ => ?_
  rw [spriteUnit_eq c p n, spriteRow_toNat hy n]
  rfl

end Sys2Proof.Machine
end

section
/-! PROOF. The cartridge (52_cartridge_mapper.md): the banks of NROM and of the MMC1 window by window (R340, R342, R348,
R349, R352), the MMC1's serial port over a sequence of writes (R347), and what no step changes (R330). -/

namespace Sys2Proof.Machine

variable {ps : Params} {c : Cart} {r : Mmc1} {a : Word} {b : PpuAddr} {d : Byte} {s t : State}

/-! ## NROM (R340, R342) -/

theorem mapCpuRead_nrom (hm : c.mapper = .nrom) : mapCpuRead ps c a = nromCpuRead c.prgBanks a := by
  rw [mapCpuRead, hm]

theorem mapPpuRead_nrom (hm : c.mapper = .nrom) :
    mapPpuRead c b = if b.toNat < 0x2000 then some b.toNat else none := by
  simp only [mapPpuRead, hm, Nat.le_iff_lt_add_one]

/-- Settles O58: PRG is one window of 32 KB or two mirrors of 16 KB, by the bank count. -/
theorem nromMapsItsBanks : Obligations.NromMapsItsBanks := by
  unfold Obligations.NromMapsItsBanks
  intro ps c a b hm
  have ha := a.isLt
  rw [mapCpuRead_nrom hm, mapPpuWrite, mapPpuRead_nrom hm, nromCpuRead]
  refine ⟨fun h => if_pos h, fun h hbanks => ?_, fun h hbanks => ?_, rfl, ?_⟩
  · rw [if_neg (by omega), if_pos hbanks, show a.toNat % 0x8000 = a.toNat - 0x8000 by omega]
  · rw [if_neg (by omega), if_neg (by omega)]
  · by_cases h : c.chrBanks = 0 <;> simp [h]

/-! ## The windows of the MMC1 (R348, R349, R352) -/

theorem Mmc1.prgMode_toNat (r : Mmc1) : r.prgMode.toNat = r.control.toNat / 4 % 4 := by
  rw [Mmc1.prgMode, BitVec.extractLsb'_toNat, Nat.shiftRight_eq_div_pow]

theorem Params.prg32Select_eq (ps : Params) (prg : BitVec 5) :
    ps.prg32Select prg = ps.prg32.toList.getD prg.toNat 0 := by
  have hlen : prg.toNat < ps.prg32.toList.length := by
    rw [Vector.length_toList]
    exact prg.isLt
  rw [List.getD_eq_getElem _ _ hlen]
  rfl

theorem mapCpuRead_mmc1 (hm : c.mapper = .mmc1 r) : mapCpuRead ps c a = mmc1CpuRead ps c.prgBanks r a := by
  rw [mapCpuRead, hm]

theorem mapCpuRead_mmc1_window (hm : c.mapper = .mmc1 r) (h6 : 0x6000 ≤ a.toNat) (h8 : a.toNat < 0x8000) :
    mapCpuRead ps c a = .fault := by
  rw [mapCpuRead_mmc1 hm]
  exact (if_neg (by omega)).trans (if_pos h8)

theorem cartCpuWrite_mmc1_window (hm : c.mapper = .mmc1 r) (h6 : 0x6000 ≤ a.toNat) (h8 : a.toNat < 0x8000) :
    cartCpuWrite c a d = .fault := by
  rw [cartCpuWrite, hm]
  exact (if_neg (by omega)).trans (if_pos h8)

/-- The PRG offset of an MMC1 read from 0x8000 up, by the mode as a number and the half of the window. -/
theorem mapCpuRead_mmc1_prg (hm : c.mapper = .mmc1 r) (h8 : 0x8000 ≤ a.toNat) :
    mapCpuRead ps c a =
      .offset
        (if r.control.toNat / 4 % 4 < 2 then 0x8000 * ps.prg32.toList.getD r.prg.toNat 0 + (a.toNat - 0x8000)
        else if r.control.toNat / 4 % 4 = 2 then
          if a.toNat < 0xC000 then a.toNat - 0x8000 else 0x4000 * (r.prg.toNat % 16) + (a.toNat - 0xC000)
        else
          if a.toNat < 0xC000 then 0x4000 * (r.prg.toNat % 16) + (a.toNat - 0x8000)
          else 0x4000 * (c.prgBanks - 1) + (a.toNat - 0xC000)) := by
  have ha := a.isLt
  have h6 : ¬ a.toNat < 0x6000 := by omega
  have h8' : ¬ a.toNat < 0x8000 := by omega
  have hmode : r.prgMode = 2 ↔ r.control.toNat / 4 % 4 = 2 := by
    rw [← Mmc1.prgMode_toNat, ← BitVec.toNat_inj]
    rfl
  simp only [mapCpuRead_mmc1 hm, mmc1CpuRead, h6, h8', if_false, Mmc1.prgMode_toNat, hmode, Params.prg32Select_eq]
  split_ifs <;> refine congrArg Claim.offset ?_ <;> omega

theorem mapPpuRead_mmc1 (hm : c.mapper = .mmc1 r) (h : b.toNat < 0x2000) :
    mapPpuRead c b = some (mmc1ChrOffset r b) := by
  rw [mapPpuRead, if_pos (by omega), hm]

/-- Settles O60: the mode's branches of the PRG offset, and the CHR offset of one or of two banks. -/
theorem mmc1BanksItsWindows : Obligations.Mmc1BanksItsWindows := by
  unfold Obligations.Mmc1BanksItsWindows
  intro ps c r a b d hm
  refine ⟨fun h => ⟨mapCpuRead_low ps c a h, cartCpuWrite_low c a d h⟩,
    fun h6 h8 => ⟨mapCpuRead_mmc1_window hm h6 h8, cartCpuWrite_mmc1_window hm h6 h8⟩, fun h8 hmode => ?_,
    fun h8 hC => ?_, fun hC => ?_, fun h hone => ?_, fun h htwo => ?_, fun h1 h htwo => ?_, fun h => ?_, rfl⟩
  · rw [mapCpuRead_mmc1_prg hm h8, if_pos hmode]
  · rw [mapCpuRead_mmc1_prg hm h8]
    exact ⟨fun hmode => by simp [hmode, hC], fun hmode => by simp [hmode, hC]⟩
  · have hC' : ¬ a.toNat < 0xC000 := Nat.not_lt.mpr hC
    rw [mapCpuRead_mmc1_prg hm (by omega)]
    exact ⟨fun hmode => by simp [hmode, hC'], fun hmode => by simp [hmode, hC']⟩
  · rw [mapPpuRead_mmc1 hm h, mmc1ChrOffset, Mmc1.chrMode, if_pos hone, Nat.mod_eq_of_lt h, Nat.mul_comm]
  · rw [mapPpuRead_mmc1 hm (by omega), mmc1ChrOffset, Mmc1.chrMode, htwo, if_neg (by decide), if_pos h,
      Nat.mod_eq_of_lt h, Nat.mul_comm]
  · rw [mapPpuRead_mmc1 hm h, mmc1ChrOffset, Mmc1.chrMode, htwo, if_neg (by decide), if_neg (by omega),
      show b.toNat % 0x1000 = b.toNat - 0x1000 by omega, Nat.mul_comm]
  · rw [mapPpuRead, if_neg (by omega)]

/-! ## The serial port (R347) -/

/-- The shift register with the data bit of one more write at the position of the count. -/
def Mmc1.received (r : Mmc1) (d : Byte) : BitVec 5 := r.shift ||| ((d.setWidth 1).setWidth 5 <<< r.count)

theorem Mmc1.getLsbD_received (r : Mmc1) (d : Byte) {k : Nat} (hk : k < 5) :
    (r.received d).getLsbD k = (r.shift.getLsbD k || (decide (k = r.count) && d.getLsbD 0)) := by
  rw [Mmc1.received, BitVec.getLsbD_or, BitVec.getLsbD_shiftLeft, BitVec.getLsbD_setWidth, BitVec.getLsbD_setWidth]
  congr 1
  rcases Nat.lt_trichotomy k r.count with h | h | h
  · simp [h, Nat.ne_of_lt h]
  · simp [h, h ▸ hk]
  · simp [Nat.ne_of_gt h, show ¬ k - r.count < 1 by omega]

theorem mmc1Serial_reset (h7 : d.getLsbD 7 = true) :
    mmc1Serial r a d = { r with shift := 0, count := 0, control := 0x0C } := if_pos h7

/-- A write before the fifth. -/
theorem mmc1Serial_shift (h7 : d.getLsbD 7 = false) (hc : r.count < 4) :
    mmc1Serial r a d = { r with shift := r.received d, count := r.count + 1 } := by
  rw [mmc1Serial, h7, if_neg (by decide)]
  exact if_neg (by omega)

/-- The register of the MMC1 that bits 14:13 of an address select, loaded with a value. -/
def Mmc1.load (r : Mmc1) (a : Word) (v : BitVec 5) : Mmc1 :=
  match a.toNat / 0x2000 % 4 with
  | 0 => { r with control := v }
  | 1 => { r with chr0 := v }
  | 2 => { r with chr1 := v }
  | _ => { r with prg := v }

/-- The fifth write. -/
theorem mmc1Serial_load (h7 : d.getLsbD 7 = false) (hc : r.count = 4) :
    mmc1Serial r a d = ({ r with shift := 0, count := 0 } : Mmc1).load a (r.received d) := by
  have hsel : (a.extractLsb' 13 2).toNat = a.toNat / 0x2000 % 4 := by
    rw [BitVec.extractLsb'_toNat, Nat.shiftRight_eq_div_pow]
  rw [mmc1Serial, h7, if_neg (by decide), Mmc1.load, ← hsel]
  exact if_pos (by omega)

/-- Five writes into an empty port: the first bit ends in bit 0, and the fifth address selects the register. -/
theorem mmc1Serial_five {a0 a1 a2 a3 a4 : Word} {d0 d1 d2 d3 d4 : Byte} (hshift : r.shift = 0) (hcount : r.count = 0)
    (h0 : d0.getLsbD 7 = false) (h1 : d1.getLsbD 7 = false) (h2 : d2.getLsbD 7 = false) (h3 : d3.getLsbD 7 = false)
    (h4 : d4.getLsbD 7 = false) :
    mmc1Serial (mmc1Serial (mmc1Serial (mmc1Serial (mmc1Serial r a0 d0) a1 d1) a2 d2) a3 d3) a4 d4 =
      r.load a4 (d4.extractLsb' 0 1 ++ d3.extractLsb' 0 1 ++ d2.extractLsb' 0 1 ++ d1.extractLsb' 0 1 ++
        d0.extractLsb' 0 1 : BitVec 5) := by
  have hempty : ({ r with shift := 0, count := 0 } : Mmc1) = r := by rw [← hshift, ← hcount]
  rw [mmc1Serial_shift h0 (by omega), mmc1Serial_shift h1 (by dsimp only; omega),
    mmc1Serial_shift h2 (by dsimp only; omega), mmc1Serial_shift h3 (by dsimp only; omega),
    mmc1Serial_load h4 (by dsimp only; omega)]
  dsimp only
  rw [hempty]
  congr 1
  apply BitVec.eq_of_getLsbD_eq
  intro k hk
  simp only [Mmc1.getLsbD_received _ _ hk, hshift, hcount, BitVec.getLsbD_append, BitVec.getLsbD_extractLsb']
  interval_cases k <;> simp

/-- The machine with other MMC1 registers. -/
def State.withMmc1 (s : State) (r : Mmc1) : State := { s with cart := { s.cart with mapper := .mmc1 r } }

/-- Writes from 0x8000 up go to the serial port, one after another, and change nothing else. -/
theorem writeAll_mmc1 {ws : List (Word × Byte)} (h8 : ∀ w ∈ ws, 0x8000 ≤ w.1.toNat) (hm : s.cart.mapper = .mmc1 r) :
    writeAll ws s = .next (s.withMmc1 (ws.foldl (fun q w => mmc1Serial q w.1 w.2) r)) := by
  induction ws generalizing s r with
  | nil => rw [writeAll, State.withMmc1, List.foldl_nil, ← hm]
  | cons w ws ih =>
    obtain ⟨hw, hws⟩ := List.forall_mem_cons.mp h8
    rw [writeAll, busWrite_mmc1 hw hm, andThen_next, ih hws rfl]
    rfl

/-- Settles O59: each write is one use of the serial port, and the fifth of five loads what they shifted in. -/
theorem mmc1SerialPortLoadsOnTheFifthWrite : Obligations.Mmc1SerialPortLoadsOnTheFifthWrite := by
  unfold Obligations.Mmc1SerialPortLoadsOnTheFifthWrite
  intro s r hm
  have hone (a : Word) (d : Byte) (h8 : 0x8000 ≤ a.toNat) :
      writeAll [(a, d)] s = .next (s.withMmc1 (mmc1Serial r a d)) := writeAll_mmc1 (by simpa using h8) hm
  refine ⟨fun a d h8 h7 => ?_, fun a d h8 h7 hc => ?_, fun a d h => cartCpuWrite_low _ a d h,
    fun a d h6 h8 => cartCpuWrite_mmc1_window hm h6 h8, fun hshift hcount a0 a1 a2 a3 a4 d0 d1 d2 d3 d4 ha hd => ?_⟩
  · exact mmc1Serial_reset h7 ▸ hone a d h8
  · refine ⟨_, hone a d h8, ?_⟩
    rw [mmc1Serial_shift h7 hc]
    exact ⟨rfl, fun k hk => r.getLsbD_received d hk⟩
  · simp only [List.forall_mem_cons, List.not_mem_nil, false_imp_iff, implies_true, and_true] at ha hd
    obtain ⟨h0, h1, h2, h3, h4⟩ := hd
    have hfive := writeAll_mmc1 (ws := [(a0, d0), (a1, d1), (a2, d2), (a3, d3), (a4, d4)]) (by simpa using ha) hm
    simp only [List.foldl_cons, List.foldl_nil, mmc1Serial_five hshift hcount h0 h1 h2 h3 h4] at hfive
    exact hfive

/-! ## What no step changes (R330) -/

/-- What is fixed once the machine is built: PRG, the bank counts, the arrangement of the header, the mapper's variant,
CHR ROM, the parameters. -/
structure SameRom (s t : State) : Prop where
  prg : t.cart.prg = s.cart.prg
  prgBanks : t.cart.prgBanks = s.cart.prgBanks
  chrBanks : t.cart.chrBanks = s.cart.chrBanks
  arrangement : t.cart.headerArrangement = s.cart.headerArrangement
  mapperId : t.cart.mapperId = s.cart.mapperId
  chrRom : s.cart.chrBanks ≠ 0 → t.cart.chr = s.cart.chr
  params : t.params = s.params

theorem sameRom_of_eq (hc : t.cart = s.cart) (hp : t.params = s.params) : SameRom s t := by
  constructor <;> simp [hc, hp]

theorem SameRom.trans {u : State} (h : SameRom s t) (h' : SameRom t u) : SameRom s u where
  prg := h'.prg.trans h.prg
  prgBanks := h'.prgBanks.trans h.prgBanks
  chrBanks := h'.chrBanks.trans h.chrBanks
  arrangement := h'.arrangement.trans h.arrangement
  mapperId := h'.mapperId.trans h.mapperId
  chrRom hrom := (h'.chrRom (h.chrBanks ▸ hrom)).trans (h.chrRom hrom)
  params := h'.params.trans h.params

theorem sameRom_afterWrite (a : Word) (d : Byte) (s : State) : SameRom s (afterWrite a d s) := by
  obtain ⟨-, hparams, hprg, hprgBanks, hchrBanks, harr, hid, hchr, -⟩ := afterWrite_fixed a s d
  exact ⟨hprg, hprgBanks, hchrBanks, harr, hid, hchr, hparams⟩

/-- Nothing the CPU does changes the ROM. -/
theorem cpuKeeps_sameRom (s : State) : CpuKeeps (SameRom s) where
  registers _ h := h.trans (sameRom_of_eq rfl rfl)
  read a h := h.trans (sameRom_of_eq (afterRead_cart a _) (afterRead_params a _))
  write a d h := h.trans (sameRom_afterWrite a d _)

/-- Settles O42: the dots leave the cartridge alone, and the CPU's clock keeps what is fixed. -/
theorem romAndParametersNeverChange : Obligations.RomAndParametersNeverChange := by
  unfold Obligations.RomAndParametersNeverChange
  intro s t ht
  obtain ⟨u, hu, hcart, hparams, -⟩ := threeDots_next s
  rw [step, busClock, hu, andThen_next] at ht
  obtain ⟨w, hw, ht⟩ := andThen_eq_next.mp ht
  obtain rfl := Host.Outcome.next.inj ht
  obtain ⟨hprg, hprgBanks, hchrBanks, harr, hid, hchr, hps⟩ :=
    (cpuKeeps_sameRom s).cpuClock_ensures (sameRom_of_eq hcart hparams) w hw
  exact ⟨hprg, hprgBanks, hchrBanks, harr, hid, hchr, hps⟩

end Sys2Proof.Machine
end

section
/-! PROOF. The OAM DMA (53_oam_dma.md): the copy byte by byte (R371), and the cost of the store that triggers it
(R372). -/

namespace Sys2Proof.Machine

variable {ram oam : Mem 8} {page oamAddr : Byte} {s t : State}

/-- After the first `n` bytes each of them stands in OAM: no two of 256 destinations in a row are the same. -/
theorem read_dma_copied {n i : Nat} (hn : n ≤ 256) (hi : i < n) :
    ((List.range n).foldl (dmaByte ram page oamAddr) oam).read ((oamAddr.toNat + i) % 256) =
      ram.read ((256 * page.toNat + i) % 2048) := by
  induction n with
  | zero => omega
  | succ n ih =>
    rw [List.range_succ, List.foldl_append, List.foldl_cons, List.foldl_nil, dmaByte]
    rcases Nat.lt_succ_iff_lt_or_eq.mp hi with h | rfl
    · rw [Mem.read_write_other _ _ (by omega), ih (by omega) h]
    · rw [Mem.read_write_same, Nat.mul_comm]

/-- A DMA writes no index past the 256 bytes of OAM. -/
theorem read_dma_above {k : Nat} (hk : 256 ≤ k) (l : List Nat) :
    (l.foldl (dmaByte ram page oamAddr) oam).read k = oam.read k := by
  induction l generalizing oam with
  | nil => rfl
  | cons i l ih => rw [List.foldl_cons, ih, dmaByte, Mem.read_write_other _ _ (by omega)]

/-- An `STA $4014` takes the four cycles of its row, the copy inside its one write. -/
theorem exec_staAbs_dma_cpu (ht : exec (.staAbs 0x4014) s = .next t) :
    t.cpu = { s.cpu with adr := 0x4014, cycles := 4 } := by
  have hopen : OperandOpen (Instr.staAbs 0x4014).operand s = true :=
    congrArg (!·) (blocked_of_low s.cart 0x4014 (by decide))
  rw [exec_eq_storesByte .STA rfl (by decide) hopen, storesByte, charged_of_extra_none rfl] at ht
  obtain rfl := Host.Outcome.next.inj ht
  rw [State.setCycles, State.mapCpu_cpu, afterWrite_cpu]
  rfl

/-- Settles O33: the copy reads RAM and writes OAM only, and the store pays its ordinary cycles. -/
theorem oamDmaCopiesAPage : Obligations.OamDmaCopiesAPage := by
  unfold Obligations.OamDmaCopiesAPage
  exact ⟨fun page s => ⟨_, busWrite_dma s page, fun _ hi => read_dma_copied (Nat.le_refl 256) hi,
    fun _ hk => read_dma_above hk _⟩, fun _ _ ht => exec_staAbs_dma_cpu ht⟩

end Sys2Proof.Machine
end

section
/-! PROOF. Interrupt entry (60_exceptions.md R381, R383, R384), in the terms of the pushes and the masks. -/

namespace Sys2Proof.Machine

/-- Settles O35: the entry of each interrupt, its pushed status and `I` as masks, its vector as two reads. -/
theorem interruptsEnterTheirHandler : Obligations.InterruptsEnterTheirHandler := by
  unfold Obligations.InterruptsEnterTheirHandler
  intro s
  have hnmi : vectorWord 0xFFFA s = mkWord (readByte 0xFFFB s) (readByte 0xFFFA s) := rfl
  have hirq : vectorWord 0xFFFE s = mkWord (readByte 0xFFFF s) (readByte 0xFFFE s) := rfl
  refine ⟨?_, fun hI => ?_, cpuIrq_masked s⟩
  · rw [cpuNmi_eq, entered, setI_true, pushedByInterrupt, hnmi]
    rfl
  · rw [cpuIrq_eq s hI, entered, setI_true, pushedByInterrupt, hirq]
    rfl

end Sys2Proof.Machine
end

section
/-! PROOF. Power-on (R331, R333, R334, R345, R411): which images load, the machine that is built from one, and its
invariant. -/

namespace Sys2Proof.Machine

variable {ps : Params} {im : Image} {mi : MemInit}

/-! ## Which images load (R333) -/

theorem Image.wellFormed_iff : im.wellFormed = true ↔ im.check = none := Option.isNone_iff_eq_none

/-- An image that loads asks for one of the two mappers and has PRG. -/
theorem Image.of_check_eq_none (h : im.check = none) : (im.mapperId = 0 ∨ im.mapperId = 1) ∧ 1 ≤ im.prgBanks := by
  unfold Image.check at h
  split at h
  · cases h
  · split at h
    · cases h
    · exact ⟨by tauto, by omega⟩

/-! ## The machine that is built (R411) -/

/-- The constructed machine with the CPU as after reset. -/
def poweredOn (ps : Params) (im : Image) (mi : MemInit) : State :=
  (construct ps im mi).mapCpu fun _ =>
    { a := 0
      x := 0
      y := 0
      sp := 0xFD
      pc := vectorWord 0xFFFC (construct ps im mi)
      p := ps.pReset
      cycles := 8
      adr := 0 }

/-- Reset finds the Bus's counters as they were constructed. -/
theorem powerOn_eq (h : im.check = none) : powerOn ps im mi = .next (poweredOn ps im mi) := by
  rw [powerOn, h]
  exact busReset_eq _

theorem powerOn_refused {reason : LoadReason} (h : im.check = some reason) :
    powerOn ps im mi = .refused (.loadRefused reason) := by
  rw [powerOn, h]

theorem poweredOn_pc :
    (poweredOn ps im mi).cpu.pc =
      mkWord (readByte 0xFFFD (poweredOn ps im mi)) (readByte 0xFFFC (poweredOn ps im mi)) := by
  rw [poweredOn, readByte_mapCpu, readByte_mapCpu]
  rfl

/-- An initialised memory reads as the values it is given. -/
theorem Mem.read_ofList_take {w n k : Nat} (l : List (BitVec w)) (h : k < n) :
    (Mem.ofList (l.take n)).read k = l.getD k 0 := by
  rw [Mem.read_ofList, List.getD_eq_getElem?_getD, List.getElem?_take_of_lt h, List.getD_eq_getElem?_getD]

theorem mapperId_construct (h : im.check = none) : (Cart.construct im).mapperId = im.mapperId := by
  obtain ⟨h0 | h1, -⟩ := Image.of_check_eq_none h
  · simp [Cart.mapperId, Cart.construct, h0]
  · simp [Cart.mapperId, Cart.construct, h1]

theorem mapper_construct (im : Image) :
    (Cart.construct im).mapper = .nrom ∨ (Cart.construct im).mapper = .mmc1 Mmc1.construct := by
  by_cases h : im.mapperId = 0
  · exact .inl (if_pos h)
  · exact .inr (if_neg h)

theorem Mapper.inv_construct (im : Image) : (Cart.construct im).mapper.Inv = true := by
  rcases mapper_construct im with h | h <;> rw [h]
  · rfl
  · decide

theorem Ppu.dotsWf_construct (oam nt pal : Mem 8) (fb : Mem 6) : (Ppu.construct oam nt pal fb).DotsWf :=
  ⟨Nat.zero_le _, Nat.zero_le _, rfl, Nat.zero_le _, Nat.zero_le _⟩

/-- Power-on establishes the invariant. -/
theorem inv_poweredOn (h : im.check = none) (hps : ps.wellFormed = true) : (poweredOn ps im mi).Inv = true := by
  have hstatus := Params.wellFormed_iff.mp hps
  obtain ⟨-, hbanks⟩ := Image.of_check_eq_none h
  have hmem := State.memWf_construct ps mi (Image.wellFormed_iff.mpr h)
  exact State.inv_iff.mpr ⟨hstatus, Ppu.dotsWf_construct _ _ _ _, hbanks, Mapper.inv_construct im, hstatus, hmem⟩

/-- Settles O38: an image that passes the checks is built into the machine, which reset leaves but for the CPU; one that
fails them is refused. -/
theorem powerOnBuildsTheMachineOrRefuses : Obligations.PowerOnBuildsTheMachineOrRefuses := by
  unfold Obligations.PowerOnBuildsTheMachineOrRefuses
  intro ps im mi
  refine ⟨fun hwf => ?_, fun hwf => ?_⟩
  · have hcheck := Image.wellFormed_iff.mp hwf
    have hmmc1 : ∀ r, (Cart.construct im).mapper = .mmc1 r → r = Mmc1.construct := by
      intro r hr
      rcases mapper_construct im with h | h
      · cases h.symm.trans hr
      · cases h.symm.trans hr
        rfl
    refine ⟨poweredOn ps im mi, powerOn_eq hcheck, ?_, fun _ => Mem.read_ofList_take _, fun _ => Mem.read_ofList_take _,
      fun _ => Mem.read_ofList_take _, fun _ => Mem.read_ofList_take _, fun _ => Mem.read_ofList_take _,
      Mem.read_ofList _, Mem.read_ofList _, rfl, rfl, mapperId_construct hcheck, rfl, hmmc1, rfl, rfl, rfl,
      inv_poweredOn hcheck⟩
    rw [← poweredOn_pc]
    rfl
  · obtain ⟨reason, hreason⟩ := Option.isSome_iff_exists.mp (Option.isNone_eq_false_iff.mp hwf)
    exact ⟨reason, powerOn_refused hreason⟩

end Sys2Proof.Machine
end
